-- ==== Sys2Proof/Word.lean ====
section
/-! DEFINITION. The word types of the block: one ROM entry, one ROM, the fields of a request and of a response.
Bit vectors stand for what the spec numbers by bits; an operand's W-bit pattern is a natural number because W is a
parameter of the build (spec/00_scope.md R5). -/
namespace Sys2Proof

/-- One ROM entry, 4 bits (spec/20_memory.md R40). -/
abbrev Nibble := BitVec 4

/-- One ROM: its listed entries as (index, entry) pairs, the index being the unsigned value of the index bit pattern
(spec/20_memory.md R40). -/
abbrev Rom := List (Nat × Nibble)

/-- The four ROMs of spec/20_memory.md R40. -/
inductive RomId where
  | lt   -- ROM_LT, the Luhn term table
  | d    -- ROM_D, the Verhoeff multiplication table
  | p    -- ROM_P, the Verhoeff permutation table
  | inv  -- ROM_INV, the Verhoeff inverse table
  deriving DecidableEq, Repr

/-- The 32-bit RESULT field of a response (spec/10_state.md R24). -/
abbrev ResultWord := BitVec 32

/-- A request: CMD, 8 bits, and OPERAND, whose W-bit pattern is held as its unsigned value (spec/10_state.md R23). -/
structure Request where
  cmd     : BitVec 8
  operand : Nat
  deriving DecidableEq, Repr

end Sys2Proof
end

