-- ==== Sys2Proof/Config.lean ====
section
/-! DEFINITION. What the build of a block fixes (spec/00_scope.md R5, R6), and the two free values: what a ROM holds
at an index pattern no operation forms, and how long the block takes to offer a response. -/
namespace Sys2Proof.Config

/-- The integer build parameters of spec/00_scope.md R5: the operand width `W` and the queue depth `QDEPTH`.
The other parameters of R5 are the ROM contents, which are state, and LATENCY (`latency` below). -/
structure Build where
  w      : Nat
  qdepth : Nat
  deriving DecidableEq, Repr

/-- The default build: W = 64, QDEPTH = 1 (spec/00_scope.md R5). -/
def defaultBuild : Build := { w := 64, qdepth := 1 }

/-- The legal values of the two parameters (spec/00_scope.md R5). -/
abbrev Build.legal (b : Build) : Prop := 8 ≤ b.w ∧ 1 ≤ b.qdepth

/-- OPMAX, the largest operand (spec/00_scope.md R6). -/
def opMax (w : Nat) : Nat := 2 ^ (w - 1) - 1

/-- FREE VALUE (log entry 8): the contents of a ROM at an index pattern that the spec gives no contents
(spec/20_memory.md R41, spec/93_implementation_defined.md U14). -/
opaque romHole : RomId → Nat → Nibble

/-- FREE VALUE (log entry 12): LATENCY, any finite duration (spec/00_scope.md R5): how many clock edges the block lets
pass before it offers the response to its n-th head request. Only the signal layer, Machine/Port.lean, reads it. -/
opaque latency : Nat → Nat

end Sys2Proof.Config
end

