-- ==== Sys2Proof/Syntax.lean ====
section
/-! DEFINITION. The four commands of spec/30_encoding.md R63, each with its operand as the signed integer the
operation reads, x = sint_W(OPERAND) (R62). -/
namespace Sys2Proof

/-- One constructor per row of spec/opcode_table.json. The operand is a base number for GEN and a composite number for
CHK (spec/10_state.md R23). -/
inductive Instr where
  | luhnGen (x : Int)  -- LUHN.GEN, spec/40_luhn.md R83
  | verhGen (x : Int)  -- VERH.GEN, spec/41_verhoeff.md R103
  | luhnChk (x : Int)  -- LUHN.CHK, spec/40_luhn.md R84
  | verhChk (x : Int)  -- VERH.CHK, spec/41_verhoeff.md R104
  deriving DecidableEq, Repr

end Sys2Proof
end

