-- ==== Sys2Proof/WellFormed.lean ====
section
/-! DEFINITION. When a command can be sent to a build: its operand is an integer the W-bit two's complement OPERAND
field holds (spec/10_state.md R23, spec/30_encoding.md R68), and W is legal (spec/00_scope.md R5). -/
namespace Sys2Proof

/-- `x` lies in [-2^(W-1), 2^(W-1)-1] (spec/30_encoding.md R68, third point of its list). -/
def operandFits (w : Nat) (x : Int) : Bool :=
  decide (-(2 ^ (w - 1) : Int) ≤ x) && decide (x ≤ (2 ^ (w - 1) : Int) - 1)

/-- The operand of a command (spec/30_encoding.md R62: the whole OPERAND field, and no other). -/
def Instr.operand : Instr → Int
  | .luhnGen x => x
  | .verhGen x => x
  | .luhnChk x => x
  | .verhChk x => x

/-- A command that a build of operand width `w` can be sent. -/
def Instr.wellFormed (w : Nat) (i : Instr) : Bool :=
  decide (8 ≤ w) && operandFits w i.operand

end Sys2Proof
end

