-- ==== Sys2Proof/Decode.lean ====
section
/-! DEFINITION. The packed request string (spec/30_encoding.md R60), the decoder (R61 to R64), total on every request and
rejecting by name, and the encoder written from the same tables. -/
namespace Sys2Proof

/-- Why a request is no command. -/
inductive DecodeError where
  /-- RSVD is not 0: one of the 252 illegal CMD values (spec/30_encoding.md R64). -/
  | illegalCommand (cmd : BitVec 8)
  deriving DecidableEq, Repr

/-- The OPERAND field of a request on a port whose OPERAND is `w` bits wide (spec/10_state.md R23). -/
def Request.operandBits (w : Nat) (req : Request) : BitVec w := BitVec.ofNat w req.operand

/-- `sint_W` (spec/00_scope.md R8): the two's complement value of a `w`-bit field. -/
def sint {w : Nat} (f : BitVec w) : Int := (f.toNat : Int) - 2 ^ w * (if f.msb then 1 else 0)

/-- CMD bit 0, ENG: 0 the LUHN engine, 1 the VERH engine (spec/30_encoding.md R61). -/
def cmdEng (cmd : BitVec 8) : Bool := cmd.getLsbD 0

/-- CMD bit 1, FN: 0 GEN, 1 CHK (spec/30_encoding.md R61). -/
def cmdFn (cmd : BitVec 8) : Bool := cmd.getLsbD 1

/-- CMD bits [7:2], RSVD (spec/30_encoding.md R61). -/
def cmdRsvd (cmd : BitVec 8) : BitVec 6 := cmd.extractLsb' 2 6

/-- The command of a request whose CMD is legal, by FN and ENG (spec/30_encoding.md R63). -/
def commandOf (fn eng : Bool) (x : Int) : Instr :=
  match fn, eng with
  | false, false => .luhnGen x
  | false, true  => .verhGen x
  | true,  false => .luhnChk x
  | true,  true  => .verhChk x

/-- The decoder: the table of spec/30_encoding.md R63 and rule R64, "nothing else". -/
def decode (w : Nat) (req : Request) : Except DecodeError Instr :=
  if cmdRsvd req.cmd ≠ 0 then .error (.illegalCommand req.cmd)
  else .ok (commandOf (cmdFn req.cmd) (cmdEng req.cmd) (sint (req.operandBits w)))

/-- A request from its packed string: CMD in [7:0], OPERAND in [W+7:8] (spec/30_encoding.md R60). -/
def unpackRequest (w : Nat) (bits : BitVec (w + 8)) : Request :=
  { cmd := bits.extractLsb' 0 8, operand := (bits.extractLsb' 8 w).toNat }

/-- The packed string of a request (spec/30_encoding.md R60). -/
def packRequest (w : Nat) (req : Request) : BitVec (w + 8) := req.operandBits w ++ req.cmd

/-- A request given as the host gives it: `nbits` bits of value `v`, numbered from CMD bit 0, every bit above them 0. -/
def requestOfBits (w nbits v : Nat) : Request := unpackRequest w (BitVec.ofNat (w + 8) (v % 2 ^ nbits))

/-- What the decoder reads from an instruction whose bits are `v`, on the default build of spec/00_scope.md R5. -/
def decodeTableWord (nbits v : Nat) : Option Instr :=
  match decode Config.defaultBuild.w (requestOfBits Config.defaultBuild.w nbits v) with
  | .ok i => some i
  | .error _ => none

/-- FN of a command (spec/30_encoding.md R63). -/
def instrFn : Instr → Bool
  | .luhnGen _ => false
  | .verhGen _ => false
  | .luhnChk _ => true
  | .verhChk _ => true

/-- ENG of a command (spec/30_encoding.md R63). -/
def instrEng : Instr → Bool
  | .luhnGen _ => false
  | .verhGen _ => true
  | .luhnChk _ => false
  | .verhChk _ => true

/-- CMD from its three fields, RSVD, FN, ENG (spec/30_encoding.md R61). -/
def cmdOfFields (rsvd : BitVec 6) (fn eng : Bool) : BitVec 8 := rsvd ++ BitVec.ofBool fn ++ BitVec.ofBool eng

/-- The encoder: CMD by the table of spec/30_encoding.md R63, OPERAND the two's complement pattern of the operand
(spec/30_encoding.md R68). -/
def encode (w : Nat) (i : Instr) : Request :=
  { cmd := cmdOfFields 0 (instrFn i) (instrEng i), operand := (BitVec.ofInt w i.operand).toNat }

end Sys2Proof
end

