-- ==== Sys2Proof/Machine/Roms.lean ====
section
/-! DEFINITION. The four ROMs (spec/20_memory.md): their contents, their index bit patterns, RomRead, and what any
contents must meet. They are read-only address spaces with 4-bit entries; the block has no other memory (R40). -/
namespace Sys2Proof.Machine

/-- The four ROMs of spec/20_memory.md R40, each a list of (index, entry) pairs. -/
structure Memory where
  lt  : Rom   -- ROM_LT
  d   : Rom   -- ROM_D
  p   : Rom   -- ROM_P
  inv : Rom   -- ROM_INV
  deriving DecidableEq, Repr

/-- One row of a table as ROM cells: column `d` of row `k` has the index `{k, d[3:0]}` (spec/20_memory.md R40). -/
def romRow (k : Nat) (row : List Nibble) : Rom := row.zipIdx.map (fun (v, d) => (16 * k + d, v))

/-- A ROM from its table, row by row. -/
def romOfRows (rows : List (List Nibble)) : Rom := (rows.zipIdx.map (fun (row, k) => romRow k row)).flatten

/-- ROM_LT (spec/20_memory.md R42). -/
def tableLT : List (List Nibble) :=
  [[0, 2, 4, 6, 8, 1, 3, 5, 7, 9],
   [0, 1, 2, 3, 4, 5, 6, 7, 8, 9]]

/-- ROM_D, the parameter VERHOEFF_D (spec/20_memory.md R43; log entry 7: PRESUMED by the spec). -/
def tableD : List (List Nibble) :=
  [[0, 1, 2, 3, 4, 5, 6, 7, 8, 9],
   [1, 2, 3, 4, 0, 6, 7, 8, 9, 5],
   [2, 3, 4, 0, 1, 7, 8, 9, 5, 6],
   [3, 4, 0, 1, 2, 8, 9, 5, 6, 7],
   [4, 0, 1, 2, 3, 9, 5, 6, 7, 8],
   [5, 9, 8, 7, 6, 0, 4, 3, 2, 1],
   [6, 5, 9, 8, 7, 1, 0, 4, 3, 2],
   [7, 6, 5, 9, 8, 2, 1, 0, 4, 3],
   [8, 7, 6, 5, 9, 3, 2, 1, 0, 4],
   [9, 8, 7, 6, 5, 4, 3, 2, 1, 0]]

/-- ROM_P, the parameter VERHOEFF_P (spec/20_memory.md R44; log entry 7: PRESUMED by the spec). -/
def tableP : List (List Nibble) :=
  [[0, 1, 2, 3, 4, 5, 6, 7, 8, 9],
   [1, 5, 7, 6, 2, 8, 3, 0, 9, 4],
   [5, 8, 0, 3, 7, 9, 6, 1, 4, 2],
   [8, 9, 1, 6, 0, 4, 3, 5, 2, 7],
   [9, 4, 5, 3, 1, 2, 6, 8, 7, 0],
   [4, 2, 8, 6, 5, 7, 3, 9, 0, 1],
   [2, 7, 9, 3, 8, 0, 6, 4, 1, 5],
   [7, 0, 4, 6, 9, 1, 3, 2, 5, 8]]

/-- ROM_INV, the parameter VERHOEFF_INV (spec/20_memory.md R45; log entry 7: PRESUMED by the spec). -/
def tableInv : List (List Nibble) := [[0, 4, 3, 2, 1, 5, 6, 7, 8, 9]]

/-- The ROMs of the default build (spec/00_scope.md R5). -/
def defaultMemory : Memory :=
  { lt := romOfRows tableLT, d := romOfRows tableD, p := romOfRows tableP, inv := romOfRows tableInv }

/-- The ROM of a name. -/
def Memory.rom (m : Memory) : RomId → Rom
  | .lt  => m.lt
  | .d   => m.d
  | .p   => m.p
  | .inv => m.inv

/-- The entry a ROM lists at an index, if any. -/
def romEntry (r : Rom) (index : Nat) : Option Nibble := r.lookup index

/-- `RomRead(ROM, index)` (spec/20_memory.md R41): no side effect and never refused. Where the spec gives no contents the
value is free (log entry 8). -/
def romRead (m : Memory) (id : RomId) {n : Nat} (index : BitVec n) : Nibble :=
  match romEntry (m.rom id) index.toNat with
  | some v => v
  | none => Config.romHole id index.toNat

/-- The index of ROM_LT, `{p[0], d[3:0]}` (spec/20_memory.md R40). -/
def ltIndex (p d : Nat) : BitVec 5 := BitVec.ofNat 1 p ++ BitVec.ofNat 4 d

/-- The index of ROM_D, `{r[3:0], c[3:0]}` (spec/20_memory.md R40). -/
def dIndex (r c : Nibble) : BitVec 8 := r ++ c

/-- The index of ROM_P, `{k[2:0], d[3:0]}` (spec/20_memory.md R40). -/
def pIndex (k d : Nat) : BitVec 7 := BitVec.ofNat 3 k ++ BitVec.ofNat 4 d

/-- `LT[p][d]` (spec/00_scope.md R11). -/
def ltRead (m : Memory) (p d : Nat) : Nibble := romRead m .lt (ltIndex p d)

/-- `D[r][c]` (spec/00_scope.md R11). -/
def dRead (m : Memory) (r c : Nibble) : Nibble := romRead m .d (dIndex r c)

/-- `P[k][d]` (spec/00_scope.md R11). -/
def pRead (m : Memory) (k d : Nat) : Nibble := romRead m .p (pIndex k d)

/-- `Inv[c]` (spec/00_scope.md R11). -/
def invRead (m : Memory) (c : Nibble) : Nibble := romRead m .inv c

/-- The indexes of a table of `rows` rows and ten columns, in rising order. -/
def tableIndexes (rows : Nat) : List Nat :=
  ((List.range rows).map (fun k => (List.range 10).map (fun d => 16 * k + d))).flatten

/-- The canonical form of the ROMs: each lists exactly its in-range indexes, strictly rising, so that equal ROMs are equal
data. It is also the shape of spec/20_memory.md R46 (a). -/
def Memory.wf (m : Memory) : Bool :=
  decide (m.lt.map Prod.fst = tableIndexes 2) && decide (m.d.map Prod.fst = tableIndexes 10) &&
  decide (m.p.map Prod.fst = tableIndexes 8) && decide (m.inv.map Prod.fst = tableIndexes 1)

/-- Every listed entry is a digit 0..9 (spec/20_memory.md R46 (b)). -/
def romDigits (r : Rom) : Bool := r.all (fun cell => decide (cell.2.toNat ≤ 9))

/-- Row `k` of ROM_P is a permutation of 0..9 (spec/20_memory.md R46 (c)): it reads no value twice. -/
def pRowPermutes (m : Memory) (k : Nat) : Bool := decide (((List.range 10).map (fun d => pRead m k d)).Nodup)

/-- What the spec requires of the ROMs of any build: ROM_LT is the table of spec/20_memory.md R42, which is no parameter
(spec/00_scope.md R5), and the others meet R46 (a) to (c). -/
def Memory.legal (m : Memory) : Bool :=
  m.wf && decide (m.lt = romOfRows tableLT) && romDigits m.d && romDigits m.p && romDigits m.inv &&
  (List.range 8).all (fun k => pRowPermutes m k)

end Sys2Proof.Machine
end

