-- ==== Sys2Proof/Machine/State.lean ====
section
/-! DEFINITION. The machine's state: the four ROMs and the in-flight queue, which is all the block has (spec/10_state.md
R20), the build parameters (spec/00_scope.md R5), and the host's side of the port as plain data. -/
namespace Sys2Proof.Machine

/-- Nothing stops the block with a fault: "Nothing traps" (spec/60_exceptions.md R138), every error is a response (R130),
so there is no constructor and no step raises one (log entry 14; safe). -/
inductive Fault where
  deriving DecidableEq, Repr

/-- Why an instruction has no meaning in the model. -/
inductive Refusal where
  /-- Raised by an arm of exec whose instruction has no meaning yet. No arm of this model raises it. Safe: the run
  stops where the hardware goes on. -/
  | notModelled (mnemonic : String)
  deriving DecidableEq, Repr

/-- The STATUS names of spec/10_state.md R26. The reserved codes 5..15 are never produced and are omitted (log entry 13). -/
inductive Status where
  | ok
  | invalidInput
  | tooShort
  | overflow        -- allocated and never produced (spec/60_exceptions.md R133)
  | illegalCommand
  deriving DecidableEq, Repr

/-- A response: STATUS and RESULT (spec/10_state.md R24). -/
structure Response where
  status : Status
  result : ResultWord
  deriving DecidableEq, Repr

/-- What happens next at the port (spec/70_reset_and_hazards.md R153, R156). -/
inductive Move where
  | accept   -- the block takes the request the host offers, if it may
  | deliver  -- the host takes the response to the head of IFQ, if there is one
  | reset    -- reset is asserted, or power is lost (spec/60_exceptions.md R145)
  deriving DecidableEq, Repr

/-- The state. `mem` and `ifq` are the block's (spec/10_state.md R20); `build` is fixed when the block is built
(spec/00_scope.md R5); `pending`, `schedule` and `taken` are the host's side of the port, the model's own fields
(log entry 1). -/
structure State where
  /-- W and QDEPTH. -/
  build    : Config.Build
  /-- The four constant ROMs. -/
  mem      : Memory
  /-- IFQ: the requests accepted and not yet answered, oldest first (spec/10_state.md R29). -/
  ifq      : List Request
  /-- The requests the host has still to get accepted; it offers the head, and holds it until it is accepted
  (spec/70_reset_and_hazards.md R155, R156). -/
  pending  : List Request
  /-- The moves still to come at the port, oldest first. -/
  schedule : List Move
  /-- The responses the host has taken, in order: the end state of a run (spec/70_reset_and_hazards.md R158). -/
  taken    : List Response
  deriving DecidableEq, Repr

/-- The machine right after reset (spec/10_state.md R31): IFQ empty, the ROMs as built. The build is the default one of
spec/00_scope.md R5; the host's fields are empty (log entry 1). -/
def State.reset : State :=
  { build := Config.defaultBuild, mem := defaultMemory, ifq := [], pending := [], schedule := [], taken := [] }

end Sys2Proof.Machine
end

