-- ==== Sys2Proof/Machine/Operands.lean ====
section
/-! DEFINITION. Operand forms: the signed reading of a request's OPERAND and the decimal digits of an operand
(spec/00_scope.md R9, spec/30_encoding.md R62, spec/40_luhn.md R80). -/
namespace Sys2Proof.Machine

/-- `x = sint_W(OPERAND)` (spec/30_encoding.md R62). -/
def operandValue (w : Nat) (req : Request) : Int := sint (req.operandBits w)

/-- `digit(x, i)`, the decimal digit of weight 10^i (spec/00_scope.md R9). -/
def digit (x i : Nat) : Nat := x / 10 ^ i % 10

/-- The digits of `x`, least significant first, for any `fuel` of at least its digit count. -/
def digitsUpTo : Nat → Nat → List Nat
  | 0, _ => []
  | fuel + 1, x => if x < 10 then [x] else x % 10 :: digitsUpTo fuel (x / 10)

/-- The digits of `x`, least significant first: d_0, d_1, ..., d_(n-1) (spec/40_luhn.md R80). A number has at most as many
decimal digits as binary ones, so the fuel suffices. -/
def digitsLow (x : Nat) : List Nat := digitsUpTo (x.log2 + 1) x

/-- `dec(x)`, the decimal text of `x`, most significant digit first, no leading zero, dec(0) = [0]
(spec/00_scope.md R9). -/
def dec (x : Nat) : List Nat := (digitsLow x).reverse

/-- NMAX, the most decimal digits any operand has (spec/00_scope.md R6). -/
def nMax (w : Nat) : Nat := (dec (Config.opMax w)).length

/-- A CHK operand's base, "the leading digits" (spec/40_luhn.md R84). -/
def compositeBase (x : Nat) : Nat := x / 100

/-- A CHK operand's check field, "the last 2 digits, as an integer" (spec/40_luhn.md R84). -/
def compositeCheck (x : Nat) : Nat := x % 100

end Sys2Proof.Machine
end

