-- ==== Sys2Proof/Machine/Flags.lean ====
section
/-! DEFINITION. The RESULT field and its only flag, MATCH (spec/10_state.md R25, R27), the STATUS codes (R26), and the
packed response (spec/30_encoding.md R60). -/
namespace Sys2Proof.Machine

/-- `RESULT[hi:lo] <- v`: the field takes the low bits of `v`, every other bit stays (spec/00_scope.md R7). -/
def setField (r : ResultWord) (hi lo v : Nat) : ResultWord :=
  let mask : ResultWord := BitVec.ofNat 32 (2 ^ (hi - lo + 1) - 1) <<< lo
  (r &&& ~~~mask) ||| ((BitVec.ofNat 32 v <<< lo) &&& mask)

/-- RESULT of a GEN response with STATUS OK (spec/10_state.md R25): CHECK, DHI and DLO. -/
def genResult (check dhi dlo : Nat) : ResultWord :=
  setField (setField (setField 0 6 0 check) 11 8 dhi) 15 12 dlo

/-- RESULT of a CHK response with STATUS OK (spec/10_state.md R25): MATCH alone. -/
def chkResult (matches? : Bool) : ResultWord := setField 0 16 16 (if matches? then 1 else 0)

/-- RESULT[6:0], CHECK. -/
def resultCheck (r : ResultWord) : BitVec 7 := r.extractLsb' 0 7

/-- RESULT[11:8], DHI. -/
def resultDhi (r : ResultWord) : BitVec 4 := r.extractLsb' 8 4

/-- RESULT[15:12], DLO. -/
def resultDlo (r : ResultWord) : BitVec 4 := r.extractLsb' 12 4

/-- RESULT[16], MATCH (spec/10_state.md R27). -/
def resultMatch (r : ResultWord) : Bool := r.getLsbD 16

/-- The reserved bits of RESULT, [7] and [31:17], read 0 (spec/10_state.md R25). -/
def reservedBitsZero (r : ResultWord) : Bool := !r.getLsbD 7 && decide (r.extractLsb' 17 15 = 0)

/-- The STATUS codes of spec/10_state.md R26. -/
def Status.code : Status → BitVec 4
  | .ok             => 0
  | .invalidInput   => 1
  | .tooShort       => 2
  | .overflow       => 3
  | .illegalCommand => 4

/-- The 36-bit response string: RESULT in [31:0], STATUS in [35:32] (spec/30_encoding.md R60). -/
def packResponse (rsp : Response) : BitVec 36 := rsp.status.code ++ rsp.result

end Sys2Proof.Machine
end

