-- ==== Sys2Proof/Machine/Ops.lean ====
section
/-! DEFINITION. The named operations of the machine: reporting an error, giving a response, accepting a request,
reset. An error is reported in the response and nowhere else (spec/60_exceptions.md R130, R138); there is no return from
one (R139). -/
namespace Sys2Proof.Machine

/-- `raise E`, which abbreviates `respond(E, 0)` (spec/00_scope.md R10): the response that reports an error, with
RESULT = 0 (spec/60_exceptions.md R130). The one way any operation reports one. -/
def raise (e : Status) : Response := { status := e, result := 0 }

/-- `respond(OK, RESULT)` (spec/00_scope.md R10). -/
def respondOk (result : ResultWord) : Response := { status := .ok, result := result }

/-- The host takes the response to the head of IFQ: the head leaves IFQ (spec/20_memory.md R50,
spec/70_reset_and_hazards.md R153) and the response joins those the host has taken. -/
def State.respond (rsp : Response) (s : State) : State :=
  { s with ifq := s.ifq.tail, taken := s.taken ++ [rsp] }

/-- Whether the port accepts a request now: `length(IFQ) < QDEPTH` (spec/10_state.md R29). -/
def State.ready (s : State) : Bool := decide (s.ifq.length < s.build.qdepth)

/-- `Accept(req)` appends the request to IFQ (spec/10_state.md R29). -/
def State.append (req : Request) (s : State) : State := { s with ifq := s.ifq ++ [req] }

/-- The port's accept move: the request the host offers is taken when the port is ready, and stays offered otherwise
(spec/70_reset_and_hazards.md R153, R155). -/
def State.accept (s : State) : State :=
  match s.pending with
  | [] => s
  | req :: rest => if s.ready then { s.append req with pending := rest } else s

/-- Reset (spec/70_reset_and_hazards.md R150): IFQ is emptied, the ROMs stay, and what the host has taken is the host's. -/
def State.resetBlock (s : State) : State := { s with ifq := [] }

end Sys2Proof.Machine
end

