-- ==== Sys2Proof/Machine/Luhn.lean ====
section
/-! DEFINITION. The LUHN engine: the Luhn check function and the meanings of LUHN.GEN and LUHN.CHK (spec/40_luhn.md). -/
namespace Sys2Proof.Machine

/-- The Luhn term of digit `d` at position `i` (spec/40_luhn.md R81). -/
def luhnTerm (m : Memory) (i d : Nat) : Nat := (ltRead m (i % 2) d).toNat

/-- The sum S of spec/40_luhn.md R82, over the positions 0 .. n-1 of dec(x). -/
def luhnSum (m : Memory) (x : Nat) : Nat :=
  (List.range (dec x).length).foldl (fun acc i => acc + luhnTerm m i (digit x i)) 0

/-- `LuhnCheck(x)` (spec/40_luhn.md R82). -/
def luhnCheck (m : Memory) (x : Nat) : Nat := (100 - luhnSum m x % 100) % 100

/-- `LuhnGen(x)` (spec/40_luhn.md R83): the response. -/
def luhnGen (m : Memory) (x : Int) : Response :=
  if x < 0 then raise .invalidInput
  else
    let v := luhnCheck m x.toNat
    respondOk (genResult v (v / 10) (v % 10))

/-- `LuhnChk(x)` (spec/40_luhn.md R84): the response. -/
def luhnChk (m : Memory) (x : Int) : Response :=
  if x < 0 then raise .invalidInput
  else if x < 100 then raise .tooShort
  else respondOk (chkResult (decide (luhnCheck m (compositeBase x.toNat) = compositeCheck x.toNat)))

/-- LUHN.GEN (spec/40_luhn.md R83). -/
def execLuhnGen (x : Int) (s : State) : Host.Outcome State Fault Refusal := .next (s.respond (luhnGen s.mem x))

/-- LUHN.CHK (spec/40_luhn.md R84). -/
def execLuhnChk (x : Int) (s : State) : Host.Outcome State Fault Refusal := .next (s.respond (luhnChk s.mem x))

end Sys2Proof.Machine
end

