-- ==== Sys2Proof/Machine/Verhoeff.lean ====
section
/-! DEFINITION. The VERH engine: the fold, the two check digits and the meanings of VERH.GEN and VERH.CHK
(spec/41_verhoeff.md). -/
namespace Sys2Proof.Machine

/-- The digit at position `i` of a digit list, `s[L-1-i]` (spec/41_verhoeff.md R100). DESIGN CHOICE (log entry 20): the spec
gives no digit at a position `i >= L`; there a non-empty list reads its leading digit, because `L-1-i` is cut at index
0, and the empty list reads 0. No operation reads such a position. -/
def digitAt (s : List Nat) (i : Nat) : Nat := s.getD (s.length - 1 - i) 0

/-- One step of the fold: the digit at position `i` goes through row (i+1) mod 8 of P and is combined by D
(spec/41_verhoeff.md R101). -/
def vStep (m : Memory) (s : List Nat) (c : Nibble) (i : Nat) : Nibble :=
  dRead m c (pRead m ((i + 1) % 8) (digitAt s i))

/-- `VFold(s)` (spec/41_verhoeff.md R101): position 0, the least significant digit, first. -/
def vFold (m : Memory) (s : List Nat) : Nibble := (List.range s.length).foldl (vStep m s) 0

/-- Pass 1 of spec/41_verhoeff.md R102: the first check digit of a digit list. -/
def verhFirst (m : Memory) (s : List Nat) : Nibble := invRead m (vFold m s)

/-- Pass 2 of spec/41_verhoeff.md R102: the second check digit, over the list with the first one appended. -/
def verhSecond (m : Memory) (s : List Nat) (first : Nibble) : Nibble := invRead m (vFold m (s ++ [first.toNat]))

/-- `VerhDigits(x)` (spec/41_verhoeff.md R102). -/
def verhDigits (m : Memory) (x : Nat) : Nibble × Nibble :=
  let first := verhFirst m (dec x)
  (first, verhSecond m (dec x) first)

/-- `10*f + g` (spec/41_verhoeff.md R103, R104). -/
def verhCheck (m : Memory) (x : Nat) : Nat := 10 * (verhDigits m x).1.toNat + (verhDigits m x).2.toNat

/-- `VerhGen(x)` (spec/41_verhoeff.md R103): the response. -/
def verhGen (m : Memory) (x : Int) : Response :=
  if x < 0 then raise .invalidInput
  else respondOk (genResult (verhCheck m x.toNat) (verhDigits m x.toNat).1.toNat (verhDigits m x.toNat).2.toNat)

/-- `VerhChk(x)` (spec/41_verhoeff.md R104): the response. -/
def verhChk (m : Memory) (x : Int) : Response :=
  if x < 0 then raise .invalidInput
  else if x < 100 then raise .tooShort
  else respondOk (chkResult (decide (verhCheck m (compositeBase x.toNat) = compositeCheck x.toNat)))

/-- VERH.GEN (spec/41_verhoeff.md R103). -/
def execVerhGen (x : Int) (s : State) : Host.Outcome State Fault Refusal := .next (s.respond (verhGen s.mem x))

/-- VERH.CHK (spec/41_verhoeff.md R104). -/
def execVerhChk (x : Int) (s : State) : Host.Outcome State Fault Refusal := .next (s.respond (verhChk s.mem x))

end Sys2Proof.Machine
end

