-- ==== Sys2Proof/Machine/Dispatch.lean ====
section
/-! DEFINITION. exec, one arm per command: performing the request at the head of IFQ. -/
namespace Sys2Proof.Machine

/-- The effect of a command: its response is given, and the request it answers leaves IFQ. -/
def exec (i : Instr) (s : State) : Host.Outcome State Fault Refusal :=
  match i with
  | .luhnGen x => Sys2Proof.Machine.execLuhnGen x s
  | .verhGen x => Sys2Proof.Machine.execVerhGen x s
  | .luhnChk x => Sys2Proof.Machine.execLuhnChk x s
  | .verhChk x => Sys2Proof.Machine.execVerhChk x s

end Sys2Proof.Machine
end

