-- ==== Sys2Proof/Machine/Requests.lean ====
section
/-! DEFINITION. A request from the port: the function Exec of spec/30_encoding.md R66, and the deliver move, which
decodes and performs the head of IFQ (spec/70_reset_and_hazards.md R153). -/
namespace Sys2Proof.Machine

/-- `Exec(req)` as spec/30_encoding.md R66 writes it, with its two checks first; total on every CMD and every OPERAND. -/
def execRequest (m : Memory) (w : Nat) (req : Request) : Response :=
  if cmdRsvd req.cmd ≠ 0 then raise .illegalCommand
  else
    let x := operandValue w req
    if x < 0 then raise .invalidInput
    else match cmdFn req.cmd, cmdEng req.cmd with
      | false, false => luhnGen m x
      | false, true  => verhGen m x
      | true,  false => luhnChk m x
      | true,  true  => verhChk m x

/-- The deliver move: the host takes the response to the head of IFQ. A legal request is performed by exec; an illegal
CMD is answered ILLEGAL_COMMAND (spec/60_exceptions.md R134); with IFQ empty no response is offered and nothing
happens (log entry 4). -/
def deliver (s : State) : Host.Outcome State Fault Refusal :=
  match s.ifq with
  | [] => .next s
  | req :: _ =>
    match decode s.build.w req with
    | .ok i => exec i s
    | .error (.illegalCommand _) => .next (s.respond (raise .illegalCommand))

/-- One move at the port (spec/70_reset_and_hazards.md R153, R150). -/
def perform (mv : Move) (s : State) : Host.Outcome State Fault Refusal :=
  match mv with
  | .accept  => .next s.accept
  | .deliver => deliver s
  | .reset   => .next s.resetBlock

/-- The moves left when the next one has been taken from the schedule. -/
def State.afterMove (rest : List Move) (s : State) : State := { s with schedule := rest }

/-- The state whose very next step performs `req`: the request is the head of IFQ, and the host takes a response next
(log entry 2). -/
def State.withRequest (req : Request) (s : State) : State :=
  { s with ifq := req :: s.ifq.tail, schedule := .deliver :: s.schedule }

end Sys2Proof.Machine
end

