-- ==== Sys2Proof/Machine/Step.lean ====
section
/-! DEFINITION. One step of the machine: the next move at the port (spec/70_reset_and_hazards.md R153). -/
namespace Sys2Proof.Machine

/-- One step: the next scheduled move is taken and performed. With none scheduled nobody moves at the port and the block
stays as it is: its own agent has no other step (spec/70_reset_and_hazards.md R153; log entry 3). -/
def step (s : State) : Host.Outcome State Fault Refusal :=
  match s.schedule with
  | [] => .next s
  | mv :: rest => perform mv (s.afterMove rest)

/-- `s` with the request of bits `v` where the next step performs it (log entry 2). -/
def State.withFetchWord (s : State) (nbits v : Nat) : State :=
  s.withRequest (requestOfBits s.build.w nbits v)

end Sys2Proof.Machine
end

