-- ==== Sys2Proof/Machine/Assembler.lean ====
section
/-! DEFINITION. The spec's request syntax (spec/30_encoding.md R68): one line of text to the request it stands for, or a
refusal by name, and the listing form of a response. Blanks and letter case are the model's choice (log entry 16). -/
namespace Sys2Proof.Machine

/-- An integer of the syntax (spec/30_encoding.md R68). -/
inductive AsmInt where
  | decimal (n : Int)  -- ["-"] decimal, stored in two's complement
  | hex (n : Nat)      -- "0x" hex, the raw W-bit pattern
  deriving DecidableEq, Repr

/-- A request of the syntax (spec/30_encoding.md R68); the mnemonics are its four. -/
inductive AsmRequest where
  | command (fn eng : Bool) (v : AsmInt)  -- mnemonic integer
  | raw (byte : Nat) (v : AsmInt)         -- ".req" byte "," integer
  deriving DecidableEq, Repr

/-- Why a line is no request. -/
inductive AsmError where
  /-- The line is not of the grammar of spec/30_encoding.md R68. -/
  | notOfTheGrammar
  /-- "An integer outside its range is refused by the assembler" (spec/30_encoding.md R68). -/
  | outOfRange
  deriving DecidableEq, Repr

/-- The OPERAND pattern of an integer, refused outside its range, never truncated (spec/30_encoding.md R68). -/
def assembleInt (w : Nat) : AsmInt → Except AsmError Nat
  | .decimal n => if operandFits w n then .ok (BitVec.ofInt w n).toNat else .error .outOfRange
  | .hex n => if n < 2 ^ w then .ok n else .error .outOfRange

/-- The request of a line's request (spec/30_encoding.md R68). A mnemonic assembles to the CMD of R63, `.req` to any
byte. -/
def assemble (w : Nat) : AsmRequest → Except AsmError Request
  | .command fn eng v =>
    match assembleInt w v with
    | .ok operand => .ok { cmd := cmdOfFields 0 fn eng, operand := operand }
    | .error e => .error e
  | .raw byte v =>
    if byte < 256 then
      match assembleInt w v with
      | .ok operand => .ok { cmd := BitVec.ofNat 8 byte, operand := operand }
      | .error e => .error e
    else .error .outOfRange

/-- The value of a decimal digit character. -/
def decimalDigit (c : Char) : Option Nat :=
  if '0'.toNat ≤ c.toNat ∧ c.toNat ≤ '9'.toNat then some (c.toNat - '0'.toNat) else none

/-- The value of a hexadecimal digit character, in either case. -/
def hexDigit (c : Char) : Option Nat :=
  if '0'.toNat ≤ c.toNat ∧ c.toNat ≤ '9'.toNat then some (c.toNat - '0'.toNat)
  else if 'a'.toNat ≤ c.toNat ∧ c.toNat ≤ 'f'.toNat then some (c.toNat - 'a'.toNat + 10)
  else if 'A'.toNat ≤ c.toNat ∧ c.toNat ≤ 'F'.toNat then some (c.toNat - 'A'.toNat + 10)
  else none

/-- A run of digits in a base, read on from `acc`. -/
def readDigits (base : Nat) (value : Char → Option Nat) : Nat → List Char → Option Nat
  | acc, [] => some acc
  | acc, c :: rest =>
    match value c with
    | some v => readDigits base value (acc * base + v) rest
    | none => none

/-- A natural number of at least one digit. -/
def readNumber (base : Nat) (value : Char → Option Nat) (word : List Char) : Option Nat :=
  match word with
  | [] => none
  | _ :: _ => readDigits base value 0 word

/-- `integer := ["-"] decimal | "0x" hex` (spec/30_encoding.md R68). -/
def readInteger (word : List Char) : Option AsmInt :=
  match word with
  | '0' :: 'x' :: rest => (readNumber 16 hexDigit rest).map AsmInt.hex
  | '-' :: rest => (readNumber 10 decimalDigit rest).map (fun n => AsmInt.decimal (-(n : Int)))
  | _ => (readNumber 10 decimalDigit word).map (fun n => AsmInt.decimal (n : Int))

/-- `byte := "0x" hex | decimal` (spec/30_encoding.md R68). -/
def readByte (word : List Char) : Option Nat :=
  match word with
  | '0' :: 'x' :: rest => readNumber 16 hexDigit rest
  | _ => readNumber 10 decimalDigit word

/-- FN and ENG of a mnemonic (spec/30_encoding.md R63, R68). -/
def readMnemonic (word : List Char) : Option (Bool × Bool) :=
  if word = "LUHN.GEN".toList then some (false, false)
  else if word = "VERH.GEN".toList then some (false, true)
  else if word = "LUHN.CHK".toList then some (true, false)
  else if word = "VERH.CHK".toList then some (true, true)
  else none

/-- A line without its comment, which runs from ";" (spec/30_encoding.md R68). -/
def stripComment (line : List Char) : List Char := line.takeWhile (fun c => c ≠ ';')

/-- The words of a line: parted by blanks, and each comma a word of its own. `word` holds the word read so far,
backwards. -/
def splitWords : List Char → List Char → List (List Char)
  | word, [] => if word = [] then [] else [word.reverse]
  | word, c :: rest =>
    if c = ' ' ∨ c = '\t' then (if word = [] then [] else [word.reverse]) ++ splitWords [] rest
    else if c = ',' then (if word = [] then [] else [word.reverse]) ++ [','] :: splitWords [] rest
    else splitWords (c :: word) rest

/-- `line := [request] [";" comment]` (spec/30_encoding.md R68): the request of a line, or none for a line without one. -/
def parseLine (line : List Char) : Except AsmError (Option AsmRequest) :=
  match splitWords [] (stripComment line) with
  | [] => .ok none
  | [name, value] =>
    match readMnemonic name, readInteger value with
    | some (fn, eng), some v => .ok (some (.command fn eng v))
    | _, _ => .error .notOfTheGrammar
  | [name, byte, comma, value] =>
    match readByte byte, readInteger value with
    | some b, some v =>
      if name = ".req".toList ∧ comma = [','] then .ok (some (.raw b v)) else .error .notOfTheGrammar
    | _, _ => .error .notOfTheGrammar
  | _ => .error .notOfTheGrammar

/-- The request of a line of text (spec/30_encoding.md R68). -/
def assembleLine (w : Nat) (line : List Char) : Except AsmError (Option Request) :=
  match parseLine line with
  | .ok none => .ok none
  | .ok (some r) =>
    match assemble w r with
    | .ok req => .ok (some req)
    | .error e => .error e
  | .error e => .error e

/-- The STATUS names of spec/10_state.md R26. -/
def Status.name : Status → List Char
  | .ok             => "OK".toList
  | .invalidInput   => "INVALID_INPUT".toList
  | .tooShort       => "TOO_SHORT".toList
  | .overflow       => "OVERFLOW".toList
  | .illegalCommand => "ILLEGAL_COMMAND".toList

/-- A hexadecimal digit as the spec's listings write it. -/
def hexChar (d : BitVec 4) : Char := ("0123456789ABCDEF".toList).getD d.toNat '0'

/-- The eight hexadecimal digits of RESULT, most significant first. -/
def resultHex (r : ResultWord) : List Char :=
  (List.range 8).map (fun k => hexChar (r.extractLsb' (4 * (7 - k)) 4))

/-- `-> STATUS, RESULT=0x........`, the listing form of a response (spec/30_encoding.md R68). -/
def listing (rsp : Response) : List Char :=
  "-> ".toList ++ rsp.status.name ++ ", RESULT=0x".toList ++ resultHex rsp.result

end Sys2Proof.Machine
end

