-- ==== Sys2Proof/Machine/Datapath.lean ====
section
/-! DEFINITION. The datapaths an implementation may use inside an operation (spec/40_luhn.md R85, spec/41_verhoeff.md R105),
over the working registers of spec/10_state.md R30. They are not architectural: State does not hold them, and each
datapath here starts from ANY contents of them (log entry 11). -/
namespace Sys2Proof.Machine

/-- The working registers of the LUHN engine (spec/10_state.md R30): Q, the W-1 bits of operand still to be split, as its
value; POS, the position mod 2; ACC, the running sum mod 100. -/
structure LuhnRegs where
  q   : Nat
  pos : BitVec 1
  acc : BitVec 7
  deriving DecidableEq, Repr

/-- The working registers of the VERH engine (spec/10_state.md R30): Q; POS, the position mod 8; C1, the pass-1 fold; M2, the
pass-2 product over the base digits; FIRST, the first check digit. -/
structure VerhRegs where
  q     : Nat
  pos   : BitVec 3
  c1    : Nibble
  m2    : Nibble
  first : Nibble
  deriving DecidableEq, Repr

/-- `Q <- x; POS <- 0; ACC <- 0`, whatever the registers held (spec/40_luhn.md R85 (a)). -/
def LuhnRegs.load (r : LuhnRegs) (x : Nat) : LuhnRegs := { r with q := x, pos := 0, acc := 0 }

/-- The body of the loop of spec/40_luhn.md R85 (a): one digit. -/
def LuhnRegs.digitStep (m : Memory) (r : LuhnRegs) : LuhnRegs :=
  { q := r.q / 10
    pos := 1 - r.pos
    acc := BitVec.ofNat 7 ((r.acc.toNat + (ltRead m r.pos.toNat (r.q % 10)).toNat) % 100) }

/-- `repeat body until Q == 0`, for a bound of at least the digit count of Q. -/
def LuhnRegs.run (m : Memory) : Nat → LuhnRegs → LuhnRegs
  | 0, r => r
  | fuel + 1, r =>
    let r' := r.digitStep m
    if r'.q = 0 then r' else LuhnRegs.run m fuel r'

/-- The table-driven mod-100 accumulator (spec/40_luhn.md R85 (a)), from working registers that hold anything. -/
def luhnAccumulator (m : Memory) (r : LuhnRegs) (x : Nat) : Nat :=
  (100 - ((r.load x).run m (x.log2 + 1)).acc.toNat) % 100

/-- The fixed scan of `positions` positions (spec/40_luhn.md R85 (b)): every position is added, those beyond the last digit
too. -/
def luhnFixedScan (m : Memory) (positions x : Nat) : Nat :=
  (100 - (List.range positions).foldl (fun acc i => acc + luhnTerm m i (digit x i)) 0 % 100) % 100

/-- `Q <- x; POS <- 0; C1 <- 0; M2 <- 0`, whatever the registers held (spec/41_verhoeff.md R105). -/
def VerhRegs.load (r : VerhRegs) (x : Nat) : VerhRegs := { r with q := x, pos := 0, c1 := 0, m2 := 0 }

/-- The body of the loop of spec/41_verhoeff.md R105: one digit through both lanes. POS has 3 bits, so POS + 1 wraps mod
8. -/
def VerhRegs.digitStep (m : Memory) (r : VerhRegs) : VerhRegs :=
  { r with
    q := r.q / 10
    c1 := dRead m r.c1 (pRead m (r.pos + 1).toNat (r.q % 10))
    m2 := dRead m r.m2 (pRead m (r.pos + 2).toNat (r.q % 10))
    pos := r.pos + 1 }

/-- `repeat body until Q == 0`, for a bound of at least the digit count of Q. -/
def VerhRegs.run (m : Memory) : Nat → VerhRegs → VerhRegs
  | 0, r => r
  | fuel + 1, r =>
    let r' := r.digitStep m
    if r'.q = 0 then r' else VerhRegs.run m fuel r'

/-- `FIRST <- RomRead(ROM_INV, C1)` (spec/41_verhoeff.md R105). -/
def VerhRegs.latchFirst (m : Memory) (r : VerhRegs) : VerhRegs := { r with first := invRead m r.c1 }

/-- The dual-permutation pipeline (spec/41_verhoeff.md R105), from working registers that hold anything. -/
def verhPipeline (m : Memory) (r : VerhRegs) (x : Nat) : Nibble × Nibble :=
  let done := ((r.load x).run m (x.log2 + 1)).latchFirst m
  (done.first, invRead m (dRead m (pRead m 1 done.first.toNat) done.m2))

end Sys2Proof.Machine
end

