-- ==== Sys2Proof/Machine/Port.lean ====
section
/-! DEFINITION. The signal-level realisation of the port (spec/70_reset_and_hazards.md R155), as a layer over the machine:
what one rising edge of clk does to the block, given the host's signals at that edge. No step of the machine depends on
it (R155; log entry 15). -/
namespace Sys2Proof.Machine

/-- The host's signals at one rising edge of clk (spec/70_reset_and_hazards.md R155). -/
structure Pins where
  rst        : Bool
  reqValid   : Bool
  reqCmd     : BitVec 8
  reqOperand : Nat        -- req_operand[W-1:0], as its unsigned value
  rspReady   : Bool
  deriving DecidableEq, Repr

/-- The block at signal level: the machine, the edges its head request has waited, and which head it is (the last two the
model's own, for LATENCY; log entry 12). -/
structure Port where
  core   : State
  waited : Nat
  turn   : Nat
  deriving DecidableEq, Repr

/-- The request on the wires. -/
def Pins.request (pins : Pins) : Request := { cmd := pins.reqCmd, operand := pins.reqOperand }

/-- `req_ready`: 0 while rst = 1 and whenever length(IFQ) = QDEPTH (spec/70_reset_and_hazards.md R155), 1 otherwise. -/
def Port.reqReady (p : Port) (pins : Pins) : Bool := !pins.rst && p.core.ready

/-- The response on the wires: `some rsp` when rsp_valid = 1. It is 0 while rst = 1 (spec/70_reset_and_hazards.md R155), and
the response to the head of IFQ is offered once LATENCY has passed (R157). -/
def Port.rspOffer (p : Port) (pins : Pins) : Option Response :=
  match p.core.ifq with
  | [] => none
  | req :: _ =>
    if pins.rst = false ∧ Config.latency p.turn ≤ p.waited then
      some (execRequest p.core.mem p.core.build.w req)
    else none

/-- A request transfers at an edge at which req_valid and req_ready are both 1 (spec/70_reset_and_hazards.md R155). -/
def Port.requestTransfers (p : Port) (pins : Pins) : Bool := pins.reqValid && p.reqReady pins

/-- A response transfers at an edge at which rsp_valid and rsp_ready are both 1 (spec/70_reset_and_hazards.md R155). -/
def Port.responseTransfers (p : Port) (pins : Pins) : Bool := (p.rspOffer pins).isSome && pins.rspReady

/-- IFQ and the responses taken after the response transfer of an edge. -/
def Port.afterResponse (p : Port) (pins : Pins) : State :=
  match p.rspOffer pins with
  | some rsp => if pins.rspReady then p.core.respond rsp else p.core
  | none => p.core

/-- The machine after both transfers of an edge (the response first; log entry 15). -/
def Port.afterTransfers (p : Port) (pins : Pins) : State :=
  if p.requestTransfers pins then (p.afterResponse pins).append pins.request else p.afterResponse pins

/-- One rising edge of clk (spec/70_reset_and_hazards.md R155). DESIGN CHOICE (log entry 21): rst is synchronous, it acts when it
is 1 at a rising edge and not between edges. -/
def Port.edge (p : Port) (pins : Pins) : Port :=
  if pins.rst then { core := p.core.resetBlock, waited := 0, turn := p.turn + 1 }
  else if p.responseTransfers pins then { core := p.afterTransfers pins, waited := 0, turn := p.turn + 1 }
  else { core := p.afterTransfers pins, waited := if p.core.ifq = [] then 0 else p.waited + 1, turn := p.turn }

/-- The moves of the transaction-level view that an edge makes (spec/70_reset_and_hazards.md R153). -/
def Port.edgeMoves (p : Port) (pins : Pins) : List Move :=
  if pins.rst then [.reset]
  else (if p.responseTransfers pins then [.deliver] else []) ++ (if p.requestTransfers pins then [.accept] else [])

/-- A sequence of rising edges, given by the host's signals at each. -/
def Port.edges : List Pins → Port → Port
  | [], p => p
  | pins :: rest, p => Port.edges rest (p.edge pins)

end Sys2Proof.Machine
end

