-- ==== Sys2Proof/Safety.lean ====
section
/-! DEFINITION. What counts as a safe run, in the terms the statements use: the states a block can be in, what a host has
been or will be answered, and the rules of the spec written a second time, apart from the machine's own text. -/
namespace Sys2Proof.Safety
open Sys2Proof Sys2Proof.Machine

/-- The OPERAND pattern of an integer of the request syntax, and none outside its range: a decimal in two's complement, a
hexadecimal as it stands (spec/30_encoding.md R68). -/
def patternByRule (w : Nat) : AsmInt → Option Nat
  | .decimal n => if -(2 ^ (w - 1) : Int) ≤ n ∧ n ≤ 2 ^ (w - 1) - 1 then some (n % 2 ^ w).toNat else none
  | .hex h => if h ≤ 2 ^ w - 1 then some h else none

/-- A request that fits the wires of a build: its operand is a `w`-bit pattern (spec/10_state.md R23). -/
abbrev fits (w : Nat) (req : Request) : Prop := req.operand < 2 ^ w

/-- The states a block can be in: legal parameters (spec/00_scope.md R5), legal ROMs (spec/20_memory.md R46), at most QDEPTH
requests in flight (spec/10_state.md R29), and every operand W bits wide (R23). -/
abbrev Inv (s : State) : Prop :=
  s.build.legal ∧ s.mem.legal = true ∧ s.ifq.length ≤ s.build.qdepth ∧
  (∀ req ∈ s.ifq, fits s.build.w req) ∧ (∀ req ∈ s.pending, fits s.build.w req)

/-- Everything the host has been answered, then everything it will be if no reset comes: Exec of each request in
flight and each still to be accepted, in order (spec/20_memory.md R52). -/
def answers (s : State) : List Response :=
  s.taken ++ (s.ifq ++ s.pending).map (execRequest s.mem s.build.w)

/-- `k` steps of the machine. -/
def run (k : Nat) (s : State) : Host.Outcome State Fault Refusal := Host.Core.run Sys2Proof.core k s

/-- The end of a run (spec/70_reset_and_hazards.md R158): every request accepted and answered. -/
abbrev finished (s : State) : Prop := s.pending = [] ∧ s.ifq = []

/-- The doubling rule of spec/40_luhn.md R81, by arithmetic: "at an even position it is 2d when 2d <= 9 and 2d - 9
otherwise. At an odd position it is d". -/
def termByRule (i d : Nat) : Nat := if i % 2 = 0 then (if 2 * d ≤ 9 then 2 * d else 2 * d - 9) else d

/-- The Luhn sum of `x` over the library's own decimal digits, least significant first. -/
def sumByRule (x : Nat) : Nat := ((Nat.digits 10 x).zipIdx.map (fun (d, i) => termByRule i d)).sum

/-- The Luhn check value by arithmetic alone, with no ROM (spec/40_luhn.md R82). -/
def luhnByRule (x : Nat) : Nat := (100 - sumByRule x % 100) % 100

/-- The closed form of D (spec/20_memory.md R43): the Cayley table of the dihedral group of order 10. -/
def dihedral (r c : Nat) : Nat :=
  if r < 5 ∧ c < 5 then (r + c) % 5
  else if r < 5 then 5 + (r + c) % 5
  else if c < 5 then 5 + (r + 5 - c) % 5
  else (r + 5 - c) % 5

/-- sigma = P[1], by its cycles (0 1 5 8 9 4 2 7)(3 6) (spec/20_memory.md R44). -/
def sigma (d : Nat) : Nat := [1, 5, 7, 6, 2, 8, 3, 0, 9, 4].getD d d

/-- sigma applied `k` times. -/
def sigmaPow : Nat → Nat → Nat
  | 0, d => d
  | k + 1, d => sigma (sigmaPow k d)

/-- The Verhoeff product of a digit list given least significant first, from position `i` on, by the closed forms of D and
P alone, with no ROM. -/
def foldByRule : Nat → Nat → List Nat → Nat
  | _, c, [] => c
  | i, c, d :: rest => foldByRule (i + 1) (dihedral c (sigmaPow ((i + 1) % 8) d)) rest

/-- The group inverse: rotations negate mod 5, reflections are their own (spec/20_memory.md R45). -/
def inverseByRule (c : Nat) : Nat := if c < 5 then (5 - c) % 5 else c

/-- The digits of `x`, least significant first, by the library's rendering, with dec(0) = [0] (spec/00_scope.md R9). -/
def digitsByRule (x : Nat) : List Nat := if x = 0 then [0] else Nat.digits 10 x

/-- The two Verhoeff check digits by arithmetic alone, with no ROM (spec/41_verhoeff.md R102). -/
def verhByRule (x : Nat) : Nat × Nat :=
  let first := inverseByRule (foldByRule 0 0 (digitsByRule x))
  (first, inverseByRule (foldByRule 0 0 (first :: digitsByRule x)))

/-- The entry a ROM lists in row `row`, column `col` of its table, found in the list itself: the cell whose index is the
pattern {row, col[3:0]} (spec/20_memory.md R40). -/
def tableEntry (r : Rom) (row col : Nat) : Nat := ((r.lookup (16 * row + col)).getD 0).toNat

/-- The fold of a digit list given least significant first, from position `i` on, by the entries of the tables D and P
(spec/41_verhoeff.md R101), whatever they hold. -/
def foldByTables (m : Memory) : Nat → Nat → List Nat → Nat
  | _, c, [] => c
  | i, c, d :: rest => foldByTables m (i + 1) (tableEntry m.d c (tableEntry m.p ((i + 1) % 8) d)) rest

/-- The two Verhoeff check digits by the entries of the tables D, P and Inv, whatever they hold: pass 1 over the digits of
the base, pass 2 over them with the first check digit at position 0 (spec/41_verhoeff.md R102). -/
def verhByTables (m : Memory) (x : Nat) : Nat × Nat :=
  let first := tableEntry m.inv 0 (foldByTables m 0 0 (digitsByRule x))
  (first, tableEntry m.inv 0 (foldByTables m 0 0 (first :: digitsByRule x)))

/-- D is associative on 0..9 (the first premise of spec/41_verhoeff.md R105). -/
abbrev dAssociative (m : Memory) : Prop :=
  ∀ a b c : Nibble, a.toNat ≤ 9 → b.toNat ≤ 9 → c.toNat ≤ 9 →
    dRead m (dRead m a b) c = dRead m a (dRead m b c)

/-- 0 is a two-sided identity of D on 0..9 (the second premise of spec/41_verhoeff.md R105). -/
abbrev dIdentity (m : Memory) : Prop :=
  ∀ a : Nibble, a.toNat ≤ 9 → dRead m 0 a = a ∧ dRead m a 0 = a

/-- The two memories have the same entries at every index an operation forms; they may differ, or have holes, elsewhere
(spec/20_memory.md R41). -/
abbrev sameEntries (m m' : Memory) : Prop :=
  (∀ p d, p ≤ 1 → d ≤ 9 → ltRead m p d = ltRead m' p d) ∧
  (∀ r c : Nibble, r.toNat ≤ 9 → c.toNat ≤ 9 → dRead m r c = dRead m' r c) ∧
  (∀ k d, k ≤ 7 → d ≤ 9 → pRead m k d = pRead m' k d) ∧
  (∀ c : Nibble, c.toNat ≤ 9 → invRead m c = invRead m' c)

/-- The ROM reads of an operation give digits (spec/20_memory.md R46 (b)). -/
abbrev readsDigits (m : Memory) : Prop :=
  (∀ r c : Nibble, r.toNat ≤ 9 → c.toNat ≤ 9 → (dRead m r c).toNat ≤ 9) ∧
  (∀ k d, k ≤ 7 → d ≤ 9 → (pRead m k d).toNat ≤ 9) ∧
  (∀ c : Nibble, c.toNat ≤ 9 → (invRead m c).toNat ≤ 9)

/-- A list of decimal digits. -/
abbrev isDigits (s : List Nat) : Prop := ∀ d ∈ s, d ≤ 9

/-- The number a digit list spells, most significant digit first (the inverse reading of spec/00_scope.md R9). -/
def spells (s : List Nat) : Nat := s.foldl (fun acc d => 10 * acc + d) 0

/-- The composite of a base and a check value, host arithmetic (spec/40_luhn.md R86). -/
def composite (b check : Nat) : Nat := b * 100 + check

end Sys2Proof.Safety
end

