-- ==== Sys2Proof/Certificates/Slice0/Obligations.lean ====
section
/-! DEFINITION. The statements for the provers, from the numbered rules of spec/. Each docstring says which rule it
formalises, and which part is the model's own choice. -/
open Sys2Proof Sys2Proof.Machine Sys2Proof.Safety

/-! ## Encoding -/

/-- spec/30_encoding.md R61, R62, R63: every command a build can be sent is read back from its own request, with every
operand of the field. -/
def Obligations.DecodeOfEncodeIsTheCommand : Prop :=
  ∀ (w : Nat) (i : Instr), i.wellFormed w = true → decode w (encode w i) = .ok i

/-- spec/30_encoding.md R61, R62, R63: a request that decodes is the encoding of what it decodes to, and that command is
one the build can be sent, so each request has one meaning. -/
def Obligations.EncodeOfDecodeIsTheRequest : Prop :=
  ∀ (w : Nat) (req : Request) (i : Instr), 8 ≤ w → fits w req → decode w req = .ok i →
    encode w i = req ∧ i.wellFormed w = true

/-- spec/30_encoding.md R63: the four rows of the opcode map, for any OPERAND. -/
def Obligations.FourCommandBytesDecode : Prop :=
  ∀ (w v : Nat),
    decode w { cmd := 0x00, operand := v } = .ok (.luhnGen (operandValue w { cmd := 0x00, operand := v })) ∧
    decode w { cmd := 0x01, operand := v } = .ok (.verhGen (operandValue w { cmd := 0x01, operand := v })) ∧
    decode w { cmd := 0x02, operand := v } = .ok (.luhnChk (operandValue w { cmd := 0x02, operand := v })) ∧
    decode w { cmd := 0x03, operand := v } = .ok (.verhChk (operandValue w { cmd := 0x03, operand := v }))

/-- spec/95_test_vectors.md L2.5 and P1, P2: a few raw 72-bit requests of the spec decode to what they stand for. -/
def Obligations.RawRequestsOfTheSpecDecode : Prop :=
  decodeTableWord 72 0x000000000111096100 = some (.luhnGen 17893729) ∧
  decodeTableWord 72 0x000000000012D68701 = some (.verhGen 1234567) ∧
  decodeTableWord 72 0xFFFFFFFFFFFFFFFB02 = some (.luhnChk (-5)) ∧
  decodeTableWord 72 0x0000000000005C5B03 = some (.verhChk 23643) ∧
  decodeTableWord 72 0xFFFFFFFFFFFFFFFB04 = none

/-- spec/30_encoding.md R60: the fields of the packed strings. CMD is bits [7:0] and OPERAND bits [W+7:8] of a request, RESULT
bits [31:0] and STATUS bits [35:32] of a response, and unpacking a packed request gives it back. -/
def Obligations.PackedFieldsStandWhereTheFormatSays : Prop :=
  ∀ (w : Nat) (req : Request) (rsp : Response), fits w req →
    (packRequest w req).extractLsb' 0 8 = req.cmd ∧
    ((packRequest w req).extractLsb' 8 w).toNat = req.operand ∧
    unpackRequest w (packRequest w req) = req ∧
    (packResponse rsp).extractLsb' 0 32 = rsp.result ∧
    (packResponse rsp).extractLsb' 32 4 = rsp.status.code

/-- spec/30_encoding.md R68: what the assembler makes of a mnemonic line and of `.req`, for both kinds of integer: the CMD of the
line with the integer's whole pattern as OPERAND, or a refusal out of range; nothing is truncated. A mnemonic with a
decimal integer is the encoding of its command, and whatever assembles fits the wires. -/
def Obligations.AssemblerRefusesAndNeverTruncates : Prop :=
  ∀ (w : Nat) (fn eng : Bool) (v : AsmInt) (n : Int) (byte : Nat), 8 ≤ w →
    assemble w (.command fn eng v) =
      (match patternByRule w v with
       | some operand => .ok { cmd := BitVec.ofNat 8 (2 * fn.toNat + eng.toNat), operand := operand }
       | none => .error .outOfRange) ∧
    assemble w (.raw byte v) =
      (if byte ≤ 255 then
        (match patternByRule w v with
         | some operand => .ok { cmd := BitVec.ofNat 8 byte, operand := operand }
         | none => .error .outOfRange)
       else .error .outOfRange) ∧
    assemble w (.command fn eng (.decimal n)) =
      (if -(2 ^ (w - 1) : Int) ≤ n ∧ n ≤ 2 ^ (w - 1) - 1 then .ok (encode w (commandOf fn eng n)) else .error .outOfRange) ∧
    (∀ (r : AsmRequest) (req : Request), assemble w r = .ok req → fits w req)

/-! ## One step -/

/-- spec/70_reset_and_hazards.md R153: when the host takes a response and the head of IFQ decodes to a command, the step is
exec of that command, after the move is taken off the schedule (the schedule is the model's own, log entry 1). -/
def Obligations.StepRunsTheDecodedCommand : Prop :=
  ∀ (s : State) (req : Request) (rest : List Request) (ms : List Move) (i : Instr),
    s.schedule = .deliver :: ms → s.ifq = req :: rest → decode s.build.w req = .ok i →
      step s = exec i { s with schedule := ms }

/-- spec/30_encoding.md R66: when the host takes a response, it is Exec of the head of IFQ, for every CMD byte and every
OPERAND, and the head leaves IFQ. -/
def Obligations.DeliverAnswersExecOfTheHead : Prop :=
  ∀ (s : State) (req : Request) (rest : List Request) (ms : List Move),
    s.schedule = .deliver :: ms → s.ifq = req :: rest →
      step s = .next { s with
        schedule := ms, ifq := rest, taken := s.taken ++ [execRequest s.mem s.build.w req] }

/-- spec/70_reset_and_hazards.md R153, spec/10_state.md R29: Accept appends the offered request when length(IFQ) < QDEPTH and is
not enabled otherwise; Deliver needs a head. A move that is not enabled changes nothing but the schedule (DEDUCED, log
entry 4), and with no move scheduled nothing happens (DESIGN CHOICE, log entry 3). -/
def Obligations.AcceptAppendsOnlyWhenThereIsRoom : Prop :=
  ∀ (s : State) (ms : List Move),
    (∀ (req : Request) (ps : List Request), s.schedule = .accept :: ms → s.pending = req :: ps →
      step s = .next (if s.ifq.length < s.build.qdepth
        then { s with schedule := ms, ifq := s.ifq ++ [req], pending := ps }
        else { s with schedule := ms })) ∧
    (s.schedule = .accept :: ms → s.pending = [] → step s = .next { s with schedule := ms }) ∧
    (s.schedule = .deliver :: ms → s.ifq = [] → step s = .next { s with schedule := ms }) ∧
    (s.schedule = [] → step s = .next s)

/-- spec/70_reset_and_hazards.md R150, spec/10_state.md R31: reset empties IFQ, gives its requests no response, and leaves the
ROMs; right after reset IFQ is empty. That a reset keeps the pending requests and the responses taken is log entry 18
(DESIGN CHOICE); that State.reset has the default W, QDEPTH and tables is log entry 5 (DESIGN CHOICE), and the contents
of the Verhoeff tables are log entry 7 (PRESUMED). -/
def Obligations.ResetEmptiesTheQueueOnly : Prop :=
  (∀ (s : State) (ms : List Move), s.schedule = .reset :: ms → step s = .next { s with schedule := ms, ifq := [] }) ∧
  State.reset.ifq = [] ∧ State.reset.mem = defaultMemory ∧ State.reset.build = { w := 64, qdepth := 1 }

/-- spec/70_reset_and_hazards.md R151: after reset the block accepts at once, as many requests as it has room for, and the first
response it offers answers the first request it accepted after reset, whatever IFQ held before. That the pending
requests and the responses taken survive the reset is log entry 18 (DESIGN CHOICE). -/
def Obligations.FirstResponseAfterResetAnswersFirstRequest : Prop :=
  ∀ (s : State) (req : Request) (more later : List Request) (ms : List Move), more.length + 1 ≤ s.build.qdepth →
    s.schedule = .reset :: (List.replicate (more.length + 1) .accept ++ .deliver :: ms) →
    s.pending = req :: (more ++ later) →
      run (more.length + 3) s = .next { s with
        schedule := ms, ifq := more, pending := later, taken := s.taken ++ [execRequest s.mem s.build.w req] }

/-- spec/70_reset_and_hazards.md R153: with an empty queue, Accept and then Deliver are the one atomic step rsp = Exec(req). -/
def Obligations.AcceptThenDeliverIsOneTransaction : Prop :=
  ∀ (s : State) (req : Request) (ps : List Request) (ms : List Move), s.build.qdepth = 1 → s.ifq = [] →
    s.schedule = .accept :: .deliver :: ms → s.pending = req :: ps →
      run 2 s = .next { s with
        schedule := ms, pending := ps, taken := s.taken ++ [execRequest s.mem s.build.w req] }

/-- spec/60_exceptions.md R130: no state stops the machine; every step answers a next state. -/
def Obligations.EveryStepAnswersANextState : Prop := ∀ s : State, ∃ t : State, step s = .next t

/-! ## The commands -/

/-- spec/40_luhn.md R83, R82: LUHN.GEN, on every operand. The check value is computed by the doubling rule on the library's
decimal digits; ROM_LT is the table of spec/20_memory.md R42, which is no parameter. It is also the command's frame: nothing
else of the state changes. -/
def Obligations.LuhnGenGivesTheCheckValue : Prop :=
  ∀ (x : Int) (s : State), s.mem.lt = romOfRows tableLT →
    (∀ w, (encode w (.luhnGen x)).cmd = 0x00) ∧
    exec (.luhnGen x) s = .next { s with
      ifq := s.ifq.tail
      taken := s.taken ++
        [if x < 0 then { status := .invalidInput, result := 0 }
         else
           { status := .ok
             result := BitVec.ofNat 32 (luhnByRule x.toNat + 256 * (luhnByRule x.toNat / 10) +
               4096 * (luhnByRule x.toNat % 10)) }] }

/-- spec/40_luhn.md R84: LUHN.CHK, on every operand; with it the command's frame. -/
def Obligations.LuhnChkComparesTheCheckValue : Prop :=
  ∀ (x : Int) (s : State), s.mem.lt = romOfRows tableLT →
    (∀ w, (encode w (.luhnChk x)).cmd = 0x02) ∧
    exec (.luhnChk x) s = .next { s with
      ifq := s.ifq.tail
      taken := s.taken ++
        [if x < 0 then { status := .invalidInput, result := 0 }
         else if x < 100 then { status := .tooShort, result := 0 }
         else
           { status := .ok
             result := if luhnByRule (x.toNat / 100) = x.toNat % 100 then 65536 else 0 }] }

/-- spec/41_verhoeff.md R103: VERH.GEN, on every operand, with the tables of spec/20_memory.md R43 to R45. The digits are
computed by the closed forms of the tables on the library's decimal digits; with it the command's frame. -/
def Obligations.VerhGenGivesTheTwoDigits : Prop :=
  ∀ (x : Int) (s : State),
    s.mem.d = romOfRows tableD → s.mem.p = romOfRows tableP → s.mem.inv = romOfRows tableInv →
    (∀ w, (encode w (.verhGen x)).cmd = 0x01) ∧
    exec (.verhGen x) s = .next { s with
      ifq := s.ifq.tail
      taken := s.taken ++
        [if x < 0 then { status := .invalidInput, result := 0 }
         else
           { status := .ok
             result := BitVec.ofNat 32 (10 * (verhByRule x.toNat).1 + (verhByRule x.toNat).2 +
               256 * (verhByRule x.toNat).1 + 4096 * (verhByRule x.toNat).2) }] }

/-- spec/41_verhoeff.md R104: VERH.CHK, on every operand, with the tables of spec/20_memory.md R43 to R45; with it the command's
frame. -/
def Obligations.VerhChkComparesTheTwoDigits : Prop :=
  ∀ (x : Int) (s : State),
    s.mem.d = romOfRows tableD → s.mem.p = romOfRows tableP → s.mem.inv = romOfRows tableInv →
    (∀ w, (encode w (.verhChk x)).cmd = 0x03) ∧
    exec (.verhChk x) s = .next { s with
      ifq := s.ifq.tail
      taken := s.taken ++
        [if x < 0 then { status := .invalidInput, result := 0 }
         else if x < 100 then { status := .tooShort, result := 0 }
         else
           { status := .ok
             result :=
               if 10 * (verhByRule (x.toNat / 100)).1 + (verhByRule (x.toNat / 100)).2 = x.toNat % 100
               then 65536 else 0 }] }

/-- spec/41_verhoeff.md R102, R103, R104: VERH.GEN and VERH.CHK with ROMs of any legal contents: the two digits are Inv of the fold
over the digits of the base, and then over them with the first digit at position 0, by the entries the ROMs list; with
it both commands' frame. -/
def Obligations.VerhCommandsFollowAnyLegalRoms : Prop :=
  ∀ (x : Int) (s : State), s.mem.legal = true →
    exec (.verhGen x) s = .next { s with
      ifq := s.ifq.tail
      taken := s.taken ++
        [if x < 0 then { status := .invalidInput, result := 0 }
         else
           { status := .ok
             result := BitVec.ofNat 32 (10 * (verhByTables s.mem x.toNat).1 + (verhByTables s.mem x.toNat).2 +
               256 * (verhByTables s.mem x.toNat).1 + 4096 * (verhByTables s.mem x.toNat).2) }] } ∧
    exec (.verhChk x) s = .next { s with
      ifq := s.ifq.tail
      taken := s.taken ++
        [if x < 0 then { status := .invalidInput, result := 0 }
         else if x < 100 then { status := .tooShort, result := 0 }
         else
           { status := .ok
             result :=
               if 10 * (verhByTables s.mem (x.toNat / 100)).1 + (verhByTables s.mem (x.toNat / 100)).2 = x.toNat % 100
               then 65536 else 0 }] }

/-- spec/20_memory.md R50, spec/10_state.md R20: the frame of all four commands, with ROMs of any contents: each completes in every
state; the head request leaves IFQ, one response is taken, and every ROM entry and every other field stays. -/
def Obligations.CommandsChangeOnlyQueueAndResponses : Prop :=
  ∀ (i : Instr) (s : State), ∃ t : State, ∃ rsp : Response, exec i s = .next t ∧
    t.ifq = s.ifq.tail ∧ t.taken = s.taken ++ [rsp] ∧
    t.mem = s.mem ∧ t.build = s.build ∧ t.pending = s.pending ∧ t.schedule = s.schedule ∧
    (∀ (id : RomId) (n : Nat) (index : BitVec n), romRead t.mem id index = romRead s.mem id index)

/-! ## Responses and errors -/

/-- spec/10_state.md R25: RESULT of every response, for any request: its fields, with every other bit 0. The fields of a GEN
response hold the check value in ROMs of any legal contents, the other clauses in ROMs of any contents at all. -/
def Obligations.ResultHasTheLayoutOfTheSpec : Prop :=
  ∀ (m : Memory) (w : Nat) (req : Request),
    let rsp := execRequest m w req
    let x := (operandValue w req).toNat
    let v := if cmdEng req.cmd then verhCheck m x else luhnCheck m x
    reservedBitsZero rsp.result = true ∧
    (rsp.status ≠ .ok → rsp.result = 0) ∧
    (rsp.status = .ok → cmdFn req.cmd = true → rsp.result = 0 ∨ rsp.result = 65536) ∧
    (cmdFn req.cmd = false → resultMatch rsp.result = false) ∧
    (m.legal = true → rsp.status = .ok → cmdFn req.cmd = false →
      v ≤ 99 ∧ (resultCheck rsp.result).toNat = v ∧ (resultDhi rsp.result).toNat = v / 10 ∧
      (resultDlo rsp.result).toNat = v % 10)

/-- spec/10_state.md R26: the five STATUS numbers, and which of them the packed response to a request carries: OVERFLOW and the
reserved ones never. -/
def Obligations.StatusNumbersAreThoseOfTheSpec : Prop :=
  (Status.ok.code = 0 ∧ Status.invalidInput.code = 1 ∧ Status.tooShort.code = 2 ∧ Status.overflow.code = 3 ∧
    Status.illegalCommand.code = 4) ∧
  ∀ (m : Memory) (w : Nat) (req : Request),
    (packResponse (execRequest m w req)).extractLsb' 32 4 =
      if 4 ≤ req.cmd.toNat then 4
      else if operandValue w req < 0 then 1
      else if 2 ≤ req.cmd.toNat ∧ operandValue w req ≤ 99 then 2
      else 0

/-- spec/10_state.md R27: MATCH is 1 exactly in the OK response to a CHK whose recomputed check value equals the last two
digits. -/
def Obligations.MatchOnlyWhenCheckValuesAgree : Prop :=
  ∀ (m : Memory) (w : Nat) (req : Request),
    let x := operandValue w req
    (resultMatch (execRequest m w req).result = true ↔
      (req.cmd = 0x02 ∧ 100 ≤ x ∧ luhnCheck m (x.toNat / 100) = x.toNat % 100) ∨
      (req.cmd = 0x03 ∧ 100 ≤ x ∧ verhCheck m (x.toNat / 100) = x.toNat % 100))

/-- spec/60_exceptions.md R131: INVALID_INPUT exactly for a legal command with a negative operand, that is, with OPERAND[W-1] =
1, and RESULT is then 0. -/
def Obligations.NegativeOperandIsInvalidInput : Prop :=
  ∀ (m : Memory) (w : Nat) (req : Request), 1 ≤ w →
    ((execRequest m w req).status = .invalidInput ↔ req.cmd.toNat < 4 ∧ operandValue w req < 0) ∧
    (operandValue w req < 0 ↔ req.operand.testBit (w - 1) = true) ∧
    ((execRequest m w req).status = .invalidInput → (execRequest m w req).result = 0)

/-- spec/60_exceptions.md R132: TOO_SHORT exactly for a CHK of 0..99, never for a GEN, and RESULT is then 0. -/
def Obligations.ShortCompositeIsTooShort : Prop :=
  ∀ (m : Memory) (w : Nat) (req : Request),
    ((execRequest m w req).status = .tooShort ↔
      (req.cmd = 0x02 ∨ req.cmd = 0x03) ∧ 0 ≤ operandValue w req ∧ operandValue w req ≤ 99) ∧
    ((execRequest m w req).status = .tooShort → (execRequest m w req).result = 0)

/-- spec/60_exceptions.md R134, spec/30_encoding.md R64: a CMD of 0x04 to 0xFF, which is one with RSVD not 0, is answered
ILLEGAL_COMMAND with RESULT 0, whatever OPERAND holds, and no other CMD is. -/
def Obligations.IllegalCommandIsAnswered : Prop :=
  ∀ (s : State) (req : Request) (rest : List Request) (ms : List Move),
    s.schedule = .deliver :: ms → s.ifq = req :: rest →
      (cmdRsvd req.cmd ≠ 0 ↔ 0x04 ≤ req.cmd.toNat) ∧
      (0x04 ≤ req.cmd.toNat → step s = .next { s with
        schedule := ms, ifq := rest, taken := s.taken ++ [{ status := .illegalCommand, result := 0 }] }) ∧
      (req.cmd.toNat < 0x04 → (execRequest s.mem s.build.w req).status ≠ .illegalCommand)

/-- spec/60_exceptions.md R135, with R133: the one STATUS a request is answered with, by the priority of the errors; so
OVERFLOW is never produced. -/
def Obligations.ErrorsAreReportedInPriorityOrder : Prop :=
  ∀ (m : Memory) (w : Nat) (req : Request),
    (execRequest m w req).status =
      (if 4 ≤ req.cmd.toNat then .illegalCommand
       else if operandValue w req < 0 then .invalidInput
       else if 2 ≤ req.cmd.toNat ∧ operandValue w req ≤ 99 then .tooShort
       else .ok) ∧
    (execRequest m w req).status ≠ .overflow

/-- spec/60_exceptions.md R136: a mismatch is STATUS OK with MATCH 0, not an error. -/
def Obligations.MismatchIsNoError : Prop :=
  ∀ (m : Memory) (w : Nat) (req : Request), 100 ≤ operandValue w req →
    (req.cmd = 0x02 → luhnCheck m ((operandValue w req).toNat / 100) ≠ (operandValue w req).toNat % 100 →
      execRequest m w req = { status := .ok, result := 0 }) ∧
    (req.cmd = 0x03 → verhCheck m ((operandValue w req).toNat / 100) ≠ (operandValue w req).toNat % 100 →
      execRequest m w req = { status := .ok, result := 0 })

/-- spec/60_exceptions.md R130: an error affects no other request: after an erroneous request and its successor the machine is
where it would be had only the successor been sent, but for the error response the host has taken. -/
def Obligations.ErrorLeavesTheNextRequestAlone : Prop :=
  ∀ (s : State) (bad good : Request) (rest : List Request) (ms : List Move),
    s.schedule = .deliver :: .deliver :: ms → s.ifq = bad :: good :: rest →
    (execRequest s.mem s.build.w bad).status ≠ .ok →
      run 2 s = run 1 { s with
        schedule := .deliver :: ms
        ifq := good :: rest
        taken := s.taken ++ [{ status := (execRequest s.mem s.build.w bad).status, result := 0 }] }

/-! ## The whole machine -/

/-- spec/20_memory.md R47: no request, reset or other event writes a ROM. That the build parameters never change either is read
from spec/00_scope.md R5, and that they are data of State is log entry 5 (DESIGN CHOICE). -/
def Obligations.NoStepWritesARom : Prop :=
  ∀ s t : State, step s = .next t → t.mem = s.mem ∧ t.build = s.build

/-- spec/20_memory.md R46, spec/10_state.md R29, R23, spec/00_scope.md R5: legal parameters, legal ROMs, at most QDEPTH requests in
flight and W-bit operands are kept by every step. -/
def Obligations.EveryStepKeepsTheInvariant : Prop := ∀ s t : State, Inv s → step s = .next t → Inv t

/-- The state right after reset meets the invariant (spec/10_state.md R31). -/
def Obligations.ResetMeetsTheInvariant : Prop := Inv State.reset

/-- spec/20_memory.md R52, spec/70_reset_and_hazards.md R158: along any run without a reset, what the host has been answered and is
still to be answered stays one and the same list, Exec of each request in the order of acceptance; so each accepted
request gets exactly one response, in order, and at the end of a run the host holds them all. -/
def Obligations.ResponsesComeInAcceptanceOrder : Prop :=
  ∀ (k : Nat) (s t : State), Move.reset ∉ s.schedule.take k → run k s = .next t →
    answers t = answers s ∧ s.taken <+: t.taken ∧
    (finished t → t.taken = s.taken ++ (s.ifq ++ s.pending).map (execRequest s.mem s.build.w))

/-- spec/10_state.md R20, spec/20_memory.md R52 (c): no request observes another: two machines with the same ROMs, the same W and
the same head of IFQ give the same response, whatever else they hold. -/
def Obligations.ResponseDependsOnItsRequestAlone : Prop :=
  ∀ (s s' t t' : State) (req : Request) (rest rest' : List Request) (ms ms' : List Move),
    s.mem = s'.mem → s.build.w = s'.build.w → s.ifq = req :: rest → s'.ifq = req :: rest' →
    s.schedule = .deliver :: ms → s'.schedule = .deliver :: ms' → step s = .next t → step s' = .next t' →
      ∃ rsp : Response, t.taken = s.taken ++ [rsp] ∧ t'.taken = s'.taken ++ [rsp]

/-- spec/70_reset_and_hazards.md R157: a host that keeps taking responses is answered every request in flight. -/
def Obligations.TakingResponsesDrainsTheQueue : Prop :=
  ∀ (s : State) (ms : List Move), s.schedule = List.replicate s.ifq.length .deliver ++ ms →
    run s.ifq.length s = .next { s with
      schedule := ms, ifq := [], taken := s.taken ++ s.ifq.map (execRequest s.mem s.build.w) }

/-! ## ROMs, digits and bounds -/

/-- spec/20_memory.md R42 to R45: the default ROMs hold the tables whose closed forms the rules give: the doubling rule, the
dihedral group, the powers of sigma, the inverses. -/
def Obligations.DefaultRomsMeetTheirClosedForms : Prop :=
  (∀ p d, p < 2 → d < 10 → (ltRead defaultMemory p d).toNat = termByRule p d) ∧
  (∀ r c, r < 10 → c < 10 → (dRead defaultMemory (BitVec.ofNat 4 r) (BitVec.ofNat 4 c)).toNat = dihedral r c) ∧
  (∀ k d, k < 8 → d < 10 → (pRead defaultMemory k d).toNat = sigmaPow k d) ∧
  (∀ c, c < 10 → dRead defaultMemory (BitVec.ofNat 4 c) (invRead defaultMemory (BitVec.ofNat 4 c)) = 0 ∧
    dRead defaultMemory (invRead defaultMemory (BitVec.ofNat 4 c)) (BitVec.ofNat 4 c) = 0)

/-- spec/20_memory.md R46 (b): in any legal ROMs, D, P and Inv answer digits with a digit. -/
def Obligations.LegalRomsReadDigits : Prop := ∀ m : Memory, m.legal = true → readsDigits m

/-- spec/20_memory.md R41: the fold stays in 0..9 over any digit list and ROMs that read digits, so every index an operation
forms is in range. -/
def Obligations.FoldStaysADigit : Prop :=
  ∀ (m : Memory) (s : List Nat), readsDigits m → isDigits s → (vFold m s).toNat ≤ 9

/-- spec/20_memory.md R41, spec/93_implementation_defined.md U14: what a ROM holds at the index patterns no operation forms changes
no response. -/
def Obligations.UnformedIndexesChangeNoResponse : Prop :=
  ∀ (m m' : Memory) (w : Nat) (req : Request), readsDigits m → sameEntries m m' →
    execRequest m w req = execRequest m' w req

/-- spec/00_scope.md R9: dec(x) is the decimal text of x, most significant digit first, with no leading zero, dec(0) = [0], and
digit(x, i) is its digit at position i. -/
def Obligations.DecIsTheDecimalText : Prop :=
  dec 0 = [0] ∧
  ∀ x : Nat, isDigits (dec x) ∧ spells (dec x) = x ∧ (0 < x → ∀ d ∈ (dec x).head?, d ≠ 0) ∧
    ∀ i, i < (dec x).length → some (digit x i) = (dec x)[(dec x).length - 1 - i]?

/-- spec/00_scope.md R6: OPMAX and NMAX, and that no operand a build can be sent has more than NMAX digits. -/
def Obligations.OperandBoundsOfTheBuild : Prop :=
  (Config.opMax 64 = 9223372036854775807 ∧ nMax 64 = 19 ∧ Config.opMax 32 = 2147483647 ∧ nMax 32 = 10) ∧
  (∀ w, 8 ≤ w → 127 ≤ Config.opMax w) ∧ Config.opMax 8 < 128 ∧ (∀ w, 11 ≤ w → 999 ≤ Config.opMax w) ∧
  ∀ (w : Nat) (i : Instr), i.wellFormed w = true → 0 ≤ i.operand →
    i.operand.toNat ≤ Config.opMax w ∧ (dec i.operand.toNat).length ≤ nMax w

/-! ## The algorithms -/

/-- spec/40_luhn.md R85: both datapaths give LuhnCheck: (a) the mod-100 accumulator, from any contents of the working
registers, and (b) the fixed scan of all NMAX positions of an operand up to OPMAX. -/
def Obligations.LuhnDatapathsComputeLuhnCheck : Prop :=
  (∀ (m : Memory) (r : LuhnRegs) (x : Nat), luhnAccumulator m r x = luhnCheck m x) ∧
  (∀ (m : Memory) (w x : Nat), m.lt = romOfRows tableLT → x ≤ Config.opMax w →
    luhnFixedScan m (nMax w) x = luhnCheck m x)

/-- spec/41_verhoeff.md R101: the fold combines the digit at the highest position last, through row (position + 1) mod 8, and
starts from 0; with the empty list for its start this determines it. -/
def Obligations.FoldCombinesTheLeadingDigitLast : Prop :=
  ∀ m : Memory, vFold m [] = 0 ∧
    ∀ (d : Nat) (s : List Nat), vFold m (d :: s) = dRead m (vFold m s) (pRead m ((s.length + 1) % 8) d)

/-- spec/41_verhoeff.md R105: the dual-permutation pipeline gives VerhDigits, from any contents of the working registers,
whenever D is associative and 0 is its two-sided identity, and the default D is and has. -/
def Obligations.PipelineComputesVerhDigits : Prop :=
  (∀ (m : Memory) (r : VerhRegs) (x : Nat), readsDigits m → dAssociative m → dIdentity m →
    verhPipeline m r x = verhDigits m x) ∧
  dAssociative defaultMemory ∧ dIdentity defaultMemory

/-- spec/41_verhoeff.md R106: one more leading zero leaves the fold as it is exactly where it stands at a position whose row is
the identity, position 7 mod 8. -/
def Obligations.LeadingZeroMattersButAtIdentityRow : Prop :=
  ∀ s : List Nat, isDigits s → (vFold defaultMemory (0 :: s) = vFold defaultMemory s ↔ s.length % 8 = 7)

/-- spec/40_luhn.md R86: the composite of a base and a check value of two digits: its decimal text, how a CHK parts it, and
where it fits the default build. -/
def Obligations.CompositeIsBaseThenCheckDigits : Prop :=
  ∀ b v : Nat, v ≤ 99 →
    (1 ≤ b → dec (composite b v) = dec b ++ [v / 10, v % 10]) ∧
    composite 0 v < 100 ∧
    (b ≤ 92233720368547757 → composite b v ≤ Config.opMax 64) ∧
    compositeBase (composite b v) = b ∧ compositeCheck (composite b v) = v

/-- spec/40_luhn.md R87 (a): what LUHN.GEN answers, appended by the host, LUHN.CHK matches; for base 0 it is TOO_SHORT. -/
def Obligations.LuhnRoundTrip : Prop :=
  ∀ (m : Memory) (b : Nat), m.legal = true →
    luhnChk m (composite b (resultCheck (luhnGen m b).result).toNat) =
      if b = 0 then { status := .tooShort, result := 0 } else { status := .ok, result := 65536 }

/-- spec/41_verhoeff.md R107 (a): what VERH.GEN answers, appended by the host, VERH.CHK matches; for base 0 it is TOO_SHORT. For
ROMs of any legal contents. -/
def Obligations.VerhoeffRoundTrip : Prop :=
  ∀ (m : Memory) (b : Nat), m.legal = true →
    verhChk m (composite b (resultCheck (verhGen m b).result).toNat) =
      if b = 0 then { status := .tooShort, result := 0 } else { status := .ok, result := 65536 }

/-- spec/40_luhn.md R87 (b): LUHN.CHK detects every single-digit substitution that leaves the composite at 100 or more, one that
makes a leading digit 0 too; below 100 the answer is TOO_SHORT (Obligations.ShortCompositeIsTooShort). -/
def Obligations.LuhnDetectsSingleDigitErrors : Prop :=
  ∀ (m : Memory) (c c' j : Nat), m.lt = romOfRows tableLT → 100 ≤ c → 100 ≤ c' →
    digit c j ≠ digit c' j → (∀ i, i ≠ j → digit c i = digit c' i) →
    luhnChk m c = { status := .ok, result := 65536 } → luhnChk m c' = { status := .ok, result := 0 }

/-- spec/41_verhoeff.md R107 (b): with the default ROMs, VERH.CHK detects every single-digit substitution that does not make the
leading digit 0. The rule reports it of the bases it checked; that it holds of all is DEDUCED (log entry 17). -/
def Obligations.VerhoeffDetectsSingleDigitErrors : Prop :=
  ∀ c c' j : Nat, 100 ≤ c → (dec c).length = (dec c').length →
    digit c j ≠ digit c' j → (∀ i, i ≠ j → digit c i = digit c' i) →
    verhChk defaultMemory c = { status := .ok, result := 65536 } →
    verhChk defaultMemory c' = { status := .ok, result := 0 }

/-- spec/41_verhoeff.md R107 (d): with the default ROMs, VERH.CHK detects every swap of two unequal adjacent digits that does not
make the leading digit 0; such a swap is left out. The rule reports it of the bases it checked; that it holds of all is DEDUCED (log entry 17). -/
def Obligations.VerhoeffDetectsAdjacentSwaps : Prop :=
  ∀ c c' j : Nat, 100 ≤ c → (dec c).length = (dec c').length →
    digit c j ≠ digit c (j + 1) → digit c' j = digit c (j + 1) → digit c' (j + 1) = digit c j →
    (∀ i, i ≠ j → i ≠ j + 1 → digit c i = digit c' i) →
    verhChk defaultMemory c = { status := .ok, result := 65536 } →
    verhChk defaultMemory c' = { status := .ok, result := 0 }

/-- spec/40_luhn.md R87 (c), spec/41_verhoeff.md R107 (c): what the block does not detect: the transposition 10989 and 19089 of the
LUHN engine, and the leading-zero mutation of 7054591090 of the VERH engine. -/
def Obligations.UndetectedErrorsOfTheSpec : Prop :=
  luhnChk defaultMemory 10989 = { status := .ok, result := 65536 } ∧
  luhnChk defaultMemory 19089 = { status := .ok, result := 65536 } ∧
  verhChk defaultMemory 7054591090 = { status := .ok, result := 65536 } ∧
  verhChk defaultMemory 54591090 = { status := .ok, result := 65536 }

/-! ## The signal layer -/

/-- spec/70_reset_and_hazards.md R155, R153: one rising edge of clk is the moves of the transaction-level view that it makes: what it
leaves of the machine is what the steps of those moves leave, for any signals. Only where a request transfers must the
request on the wires be the one the machine has pending. That rst acts at the edge is log entry 21 and the order of two
transfers at one edge log entry 15 (both DESIGN CHOICE). -/
def Obligations.ClockEdgeIsItsPortMoves : Prop :=
  ∀ (p : Port) (pins : Pins) (ps : List Request) (ms : List Move),
    (p.requestTransfers pins = true → p.core.pending = pins.request :: ps) →
    p.core.schedule = p.edgeMoves pins ++ ms →
      run (p.edgeMoves pins).length p.core = .next { (p.edge pins).core with
        schedule := ms
        pending := if p.requestTransfers pins then ps else p.core.pending }

/-- spec/70_reset_and_hazards.md R155: req_ready = 0 while IFQ is full; while rst = 1, req_ready = 0 and rsp_valid = 0; and a
response offered and not taken stays offered, the same, at the next edge. -/
def Obligations.PortKeepsItsSignalDuties : Prop :=
  ∀ (p : Port) (pins next : Pins) (rsp : Response),
    (p.core.ifq.length = p.core.build.qdepth → p.reqReady pins = false) ∧
    (pins.rst = true → p.reqReady pins = false ∧ p.rspOffer pins = none) ∧
    (p.rspOffer pins = some rsp → pins.rspReady = false → next.rst = false → (p.edge pins).rspOffer next = some rsp)

/-- spec/70_reset_and_hazards.md R157: every accepted request has its response offered within finite time, whatever LATENCY is and
whatever the host sends meanwhile: there is a number of edges after which the response to the head of IFQ is on the
wires, for any sequence of that many edges with no reset, and it stays there for any longer sequence at which the host
takes no response. LATENCY is a free value (log entry 12), so the statement holds for every one. -/
def Obligations.ResponseIsOfferedInFiniteTime : Prop :=
  ∀ (p : Port) (req : Request) (rest : List Request), p.core.ifq = req :: rest →
    ∃ n : Nat, ∀ (sent : List Pins) (pins : Pins), pins.rst = false → (∀ e ∈ sent, e.rst = false) →
      (sent.length = n ∨ (n ≤ sent.length ∧ ∀ e ∈ sent, e.rspReady = false)) →
        (Port.edges sent p).rspOffer pins = some (execRequest p.core.mem p.core.build.w req)
end

