-- ==== Sys2Proof/Laws/Digits.lean ====
section
/-! SUPPORT. The decimal digits of an operand, brought to the library's `Nat.digits`. -/
namespace Sys2Proof.Machine

/-- With enough fuel the digit split is the library's digits, but for 0, which has one digit. -/
theorem digitsUpTo_eq (fuel x : Nat) (h : x < 10 ^ (fuel + 1)) :
    digitsUpTo (fuel + 1) x = if x = 0 then [0] else Nat.digits 10 x := by
  induction fuel generalizing x with
  | zero =>
    have hx : x < 10 := by simpa using h
    by_cases h0 : x = 0
    · simp [digitsUpTo, h0]
    · simp [digitsUpTo, hx, h0]
  | succ fuel ih =>
    by_cases hx : x < 10
    · by_cases h0 : x = 0
      · simp [digitsUpTo, h0]
      · simp [digitsUpTo, hx, h0]
    · have hq : x / 10 < 10 ^ (fuel + 1) := by
        rw [Nat.div_lt_iff_lt_mul (by norm_num)]
        rwa [pow_succ] at h
      have h1 : x / 10 ≠ 0 := by omega
      rw [digitsUpTo, if_neg hx, ih _ hq, if_neg h1, if_neg (by omega),
        Nat.digits_def' (by norm_num : 1 < 10) (by omega : 0 < x)]

/-- The digits of an operand are the library's, but for 0, which has one digit. -/
theorem digitsLow_eq (x : Nat) : digitsLow x = if x = 0 then [0] else Nat.digits 10 x := by
  refine digitsUpTo_eq x.log2 x (lt_of_lt_of_le Nat.lt_log2_self ?_)
  exact Nat.pow_le_pow_left (by norm_num) _

/-- `dec` reversed is the digit split. -/
@[simp] theorem dec_reverse (x : Nat) : (dec x).reverse = digitsLow x := by simp [dec]

/-- The digit count is the library's, but for 0. -/
theorem dec_length (x : Nat) : (dec x).length = if x = 0 then 1 else (Nat.digits 10 x).length := by
  rw [dec, List.length_reverse, digitsLow_eq]
  split <;> simp

/-- The digit of weight 10^i of a number is digit 0 of its quotient. -/
theorem digit_succ (x i : Nat) : digit x (i + 1) = digit (x / 10) i := by
  simp [digit, Nat.div_div_eq_div_mul, pow_succ, Nat.mul_comm]

@[simp] theorem digit_zero (x : Nat) : digit x 0 = x % 10 := by simp [digit]

/-- A digit is 0..9. -/
theorem digit_le (x i : Nat) : digit x i ≤ 9 := by unfold digit; omega

end Sys2Proof.Machine
end

