-- ==== Sys2Proof/Laws/Roms.lean ====
section
/-! SUPPORT. The ROM operations: the index of each ROM as a number, what a read gives, and that the default contents have
the canonical form and are legal. -/
namespace Sys2Proof.Machine

/-- `{a, b}` with a low part of four bits, as a number. -/
theorem toNat_append_nibble {n : Nat} (a : BitVec n) (b : BitVec 4) : (a ++ b).toNat = 16 * a.toNat + b.toNat := by
  rw [BitVec.toNat_append, ← Nat.shiftLeft_add_eq_or_of_lt (by omega), Nat.shiftLeft_eq]
  omega

@[simp] theorem dIndex_toNat (r c : Nibble) : (dIndex r c).toNat = 16 * r.toNat + c.toNat := toNat_append_nibble r c

theorem ltIndex_toNat (p d : Nat) : (ltIndex p d).toNat = 16 * (p % 2) + d % 16 := by
  simp [ltIndex, toNat_append_nibble]

theorem pIndex_toNat (k d : Nat) : (pIndex k d).toNat = 16 * (k % 8) + d % 16 := by
  simp [pIndex, toNat_append_nibble]

/-- A read of a listed index gives the entry. -/
theorem romRead_listed {m : Memory} {id : RomId} {n : Nat} {index : BitVec n} {v : Nibble}
    (h : romEntry (m.rom id) index.toNat = some v) : romRead m id index = v := by
  simp [romRead, h]

/-- A read of an index that is not listed gives the free value. -/
theorem romRead_hole {m : Memory} {id : RomId} {n : Nat} {index : BitVec n}
    (h : romEntry (m.rom id) index.toNat = none) : romRead m id index = Config.romHole id index.toNat := by
  simp [romRead, h]

/-- The default ROMs have the canonical form. -/
theorem defaultMemory_wf : defaultMemory.wf = true := by decide +kernel

/-- The default ROMs meet what the spec requires of any. -/
theorem defaultMemory_legal : defaultMemory.legal = true := by decide +kernel

end Sys2Proof.Machine
end

