-- ==== Sys2Proof/Laws/State.lean ====
section
/-! SUPPORT. What each update of the state leaves in each field, one lemma per field and update, true by unfolding the
update once. -/
namespace Sys2Proof.Machine

section
variable (rsp : Response) (s : State)
@[simp] theorem State.respond_build : (s.respond rsp).build = s.build := rfl
@[simp] theorem State.respond_mem : (s.respond rsp).mem = s.mem := rfl
@[simp] theorem State.respond_ifq : (s.respond rsp).ifq = s.ifq.tail := rfl
@[simp] theorem State.respond_pending : (s.respond rsp).pending = s.pending := rfl
@[simp] theorem State.respond_schedule : (s.respond rsp).schedule = s.schedule := rfl
@[simp] theorem State.respond_taken : (s.respond rsp).taken = s.taken ++ [rsp] := rfl
end

section
variable (req : Request) (s : State)
@[simp] theorem State.append_build : (s.append req).build = s.build := rfl
@[simp] theorem State.append_mem : (s.append req).mem = s.mem := rfl
@[simp] theorem State.append_ifq : (s.append req).ifq = s.ifq ++ [req] := rfl
@[simp] theorem State.append_pending : (s.append req).pending = s.pending := rfl
@[simp] theorem State.append_schedule : (s.append req).schedule = s.schedule := rfl
@[simp] theorem State.append_taken : (s.append req).taken = s.taken := rfl
end

section
variable (s : State)
@[simp] theorem State.resetBlock_build : s.resetBlock.build = s.build := rfl
@[simp] theorem State.resetBlock_mem : s.resetBlock.mem = s.mem := rfl
@[simp] theorem State.resetBlock_ifq : s.resetBlock.ifq = [] := rfl
@[simp] theorem State.resetBlock_pending : s.resetBlock.pending = s.pending := rfl
@[simp] theorem State.resetBlock_schedule : s.resetBlock.schedule = s.schedule := rfl
@[simp] theorem State.resetBlock_taken : s.resetBlock.taken = s.taken := rfl
end

section
variable (rest : List Move) (s : State)
@[simp] theorem State.afterMove_build : (s.afterMove rest).build = s.build := rfl
@[simp] theorem State.afterMove_mem : (s.afterMove rest).mem = s.mem := rfl
@[simp] theorem State.afterMove_ifq : (s.afterMove rest).ifq = s.ifq := rfl
@[simp] theorem State.afterMove_pending : (s.afterMove rest).pending = s.pending := rfl
@[simp] theorem State.afterMove_schedule : (s.afterMove rest).schedule = rest := rfl
@[simp] theorem State.afterMove_taken : (s.afterMove rest).taken = s.taken := rfl
end

section
variable (req : Request) (s : State)
@[simp] theorem State.withRequest_build : (s.withRequest req).build = s.build := rfl
@[simp] theorem State.withRequest_mem : (s.withRequest req).mem = s.mem := rfl
@[simp] theorem State.withRequest_ifq : (s.withRequest req).ifq = req :: s.ifq.tail := rfl
@[simp] theorem State.withRequest_pending : (s.withRequest req).pending = s.pending := rfl
@[simp] theorem State.withRequest_schedule : (s.withRequest req).schedule = .deliver :: s.schedule := rfl
@[simp] theorem State.withRequest_taken : (s.withRequest req).taken = s.taken := rfl
end

end Sys2Proof.Machine
end

