-- ==== Sys2Proof/Laws/Ops.lean ====
section
/-! SUPPORT. What each shared operation can do, said once: accept, exec, deliver, one step. -/
namespace Sys2Proof.Machine

/-- The response of a command: what exec gives, apart from the state it gives it in. -/
def responseOf (m : Memory) : Instr → Response
  | .luhnGen x => luhnGen m x
  | .verhGen x => verhGen m x
  | .luhnChk x => luhnChk m x
  | .verhChk x => verhChk m x

/-- exec gives the command's response and does nothing else. -/
theorem exec_eq_respond (i : Instr) (s : State) : exec i s = .next (s.respond (responseOf s.mem i)) := by
  cases i <;> rfl

/-- accept: nothing to offer, or the offered request taken, or the port full. -/
theorem State.accept_cases (s : State) :
    (s.pending = [] ∧ s.accept = s) ∨
    (∃ req rest, s.pending = req :: rest ∧ s.ifq.length < s.build.qdepth ∧
      s.accept = { s with ifq := s.ifq ++ [req], pending := rest }) ∨
    (∃ req rest, s.pending = req :: rest ∧ s.build.qdepth ≤ s.ifq.length ∧ s.accept = s) := by
  rcases hp : s.pending with _ | ⟨req, rest⟩
  · exact .inl ⟨rfl, by simp [State.accept, hp]⟩
  · by_cases h : s.ifq.length < s.build.qdepth
    · exact .inr (.inl ⟨req, rest, rfl, h, by simp [State.accept, State.ready, State.append, hp, h]⟩)
    · exact .inr (.inr ⟨req, rest, rfl, by omega, by simp [State.accept, State.ready, hp, h]⟩)

@[simp] theorem State.accept_build (s : State) : s.accept.build = s.build := by
  rcases s.accept_cases with ⟨-, h⟩ | ⟨_, _, -, -, h⟩ | ⟨_, _, -, -, h⟩ <;> rw [h]

@[simp] theorem State.accept_mem (s : State) : s.accept.mem = s.mem := by
  rcases s.accept_cases with ⟨-, h⟩ | ⟨_, _, -, -, h⟩ | ⟨_, _, -, -, h⟩ <;> rw [h]

@[simp] theorem State.accept_schedule (s : State) : s.accept.schedule = s.schedule := by
  rcases s.accept_cases with ⟨-, h⟩ | ⟨_, _, -, -, h⟩ | ⟨_, _, -, -, h⟩ <;> rw [h]

@[simp] theorem State.accept_taken (s : State) : s.accept.taken = s.taken := by
  rcases s.accept_cases with ⟨-, h⟩ | ⟨_, _, -, -, h⟩ | ⟨_, _, -, -, h⟩ <;> rw [h]

/-- The ROMs right after reset have the canonical form; no operation writes one, so each of them keeps it. -/
theorem State.reset_mem_wf : State.reset.mem.wf = true := defaultMemory_wf

theorem State.respond_mem_wf {s : State} (rsp : Response) (h : s.mem.wf = true) : (s.respond rsp).mem.wf = true := h
theorem State.resetBlock_mem_wf {s : State} (h : s.mem.wf = true) : s.resetBlock.mem.wf = true := h
theorem State.append_mem_wf {s : State} (req : Request) (h : s.mem.wf = true) : (s.append req).mem.wf = true := h
theorem State.accept_mem_wf {s : State} (h : s.mem.wf = true) : s.accept.mem.wf = true := by rwa [State.accept_mem]

/-- A request is refused by the decoder, by name, or is the command its CMD bits name. -/
theorem decode_cases (w : Nat) (req : Request) :
    (cmdRsvd req.cmd ≠ 0 ∧ decode w req = .error (.illegalCommand req.cmd)) ∨
    (cmdRsvd req.cmd = 0 ∧
      decode w req = .ok (commandOf (cmdFn req.cmd) (cmdEng req.cmd) (operandValue w req))) := by
  by_cases h : cmdRsvd req.cmd = 0
  · exact .inr ⟨h, by rw [decode, if_neg (by simpa using h)]; rfl⟩
  · exact .inl ⟨h, by rw [decode, if_pos h]⟩

/-- deliver: no request in flight, or the head answered, by exec where it decodes and ILLEGAL_COMMAND where it does not. -/
theorem deliver_cases (s : State) :
    (s.ifq = [] ∧ deliver s = .next s) ∨
    (∃ req rest i, s.ifq = req :: rest ∧ decode s.build.w req = .ok i ∧
      deliver s = .next (s.respond (responseOf s.mem i))) ∨
    (∃ req rest, s.ifq = req :: rest ∧ cmdRsvd req.cmd ≠ 0 ∧
      deliver s = .next (s.respond (raise .illegalCommand))) := by
  rcases hq : s.ifq with _ | ⟨req, rest⟩
  · exact .inl ⟨rfl, by simp [deliver, hq]⟩
  · rcases decode_cases s.build.w req with ⟨h, hd⟩ | ⟨-, hd⟩
    · exact .inr (.inr ⟨req, rest, rfl, h, by simp [deliver, hq, hd]⟩)
    · exact .inr (.inl ⟨req, rest, _, rfl, hd, by simp [deliver, hq, hd, exec_eq_respond]⟩)

/-- One step: no move scheduled, or the next one performed. -/
theorem step_cases (s : State) :
    (s.schedule = [] ∧ step s = .next s) ∨
    (∃ rest, s.schedule = .accept :: rest ∧ step s = .next (s.afterMove rest).accept) ∨
    (∃ rest, s.schedule = .deliver :: rest ∧ step s = deliver (s.afterMove rest)) ∨
    (∃ rest, s.schedule = .reset :: rest ∧ step s = .next (s.afterMove rest).resetBlock) := by
  rcases hs : s.schedule with _ | ⟨mv, rest⟩
  · exact .inl ⟨rfl, by simp [step, hs]⟩
  · cases mv <;> simp [step, hs, perform]

end Sys2Proof.Machine
end

