-- ==== Sys2Proof/Laws/PerInstr.lean ====
section
/-! SUPPORT. Statements about every command as syntax, one lemma per constructor. -/
namespace Sys2Proof.Laws.CommandFields
open Sys2Proof Sys2Proof.Machine

/-- The CMD byte a command is encoded with has RSVD 0, its own FN and its own ENG (spec/30_encoding.md R61, R63). -/
def Statement (i : Instr) : Prop :=
  ∀ w, cmdRsvd (encode w i).cmd = 0 ∧ cmdFn (encode w i).cmd = instrFn i ∧ cmdEng (encode w i).cmd = instrEng i

/-- The three fields of a CMD byte assembled from them. -/
theorem fields_cmdOfFields (fn eng : Bool) :
    cmdRsvd (cmdOfFields 0 fn eng) = 0 ∧ cmdFn (cmdOfFields 0 fn eng) = fn ∧ cmdEng (cmdOfFields 0 fn eng) = eng := by
  cases fn <;> cases eng <;> decide

theorem luhnGen (x : Int) : Statement (.luhnGen x) := fun _ => fields_cmdOfFields false false
theorem verhGen (x : Int) : Statement (.verhGen x) := fun _ => fields_cmdOfFields false true
theorem luhnChk (x : Int) : Statement (.luhnChk x) := fun _ => fields_cmdOfFields true false
theorem verhChk (x : Int) : Statement (.verhChk x) := fun _ => fields_cmdOfFields true true

end Sys2Proof.Laws.CommandFields
end

