-- ==== Sys2Proof/Laws/Port.lean ====
section
/-! SUPPORT. The signal layer: when a response is on the wires, and what the transfers of an edge leave in each field. -/
namespace Sys2Proof.Machine

/-- A response is on the wires exactly when there is a head, rst = 0 and LATENCY has passed, and it is Exec of the head. -/
theorem Port.rspOffer_eq_some {p : Port} {pins : Pins} {rsp : Response} :
    p.rspOffer pins = some rsp ↔ ∃ req rest, p.core.ifq = req :: rest ∧ pins.rst = false ∧
      Config.latency p.turn ≤ p.waited ∧ execRequest p.core.mem p.core.build.w req = rsp := by
  rcases h : p.core.ifq with _ | ⟨req, rest⟩
  · simp [Port.rspOffer, h]
  · by_cases hw : pins.rst = false ∧ Config.latency p.turn ≤ p.waited
    · simp [Port.rspOffer, h, hw]
    · simp only [Port.rspOffer, h, if_neg hw]
      constructor
      · intro h'; cases h'
      · rintro ⟨_, _, _, h1, h2, _⟩; exact absurd ⟨h1, h2⟩ hw

/-- Where no response transfers, the response side of an edge leaves the machine as it is. -/
theorem Port.afterResponse_of_not {p : Port} {pins : Pins} (h : p.responseTransfers pins = false) :
    p.afterResponse pins = p.core := by
  unfold Port.afterResponse
  unfold Port.responseTransfers at h
  split
  · next h' => simp_all
  · rfl

@[simp] theorem Port.afterResponse_mem (p : Port) (pins : Pins) : (p.afterResponse pins).mem = p.core.mem := by
  unfold Port.afterResponse; split <;> [split; skip] <;> rfl
@[simp] theorem Port.afterResponse_build (p : Port) (pins : Pins) : (p.afterResponse pins).build = p.core.build := by
  unfold Port.afterResponse; split <;> [split; skip] <;> rfl
@[simp] theorem Port.afterResponse_pending (p : Port) (pins : Pins) :
    (p.afterResponse pins).pending = p.core.pending := by
  unfold Port.afterResponse; split <;> [split; skip] <;> rfl
@[simp] theorem Port.afterTransfers_mem (p : Port) (pins : Pins) : (p.afterTransfers pins).mem = p.core.mem := by
  unfold Port.afterTransfers; split <;> simp
@[simp] theorem Port.afterTransfers_build (p : Port) (pins : Pins) :
    (p.afterTransfers pins).build = p.core.build := by
  unfold Port.afterTransfers; split <;> simp
@[simp] theorem Port.edge_mem (p : Port) (pins : Pins) : (p.edge pins).core.mem = p.core.mem := by
  unfold Port.edge; split <;> [skip; split] <;> simp
@[simp] theorem Port.edge_build (p : Port) (pins : Pins) : (p.edge pins).core.build = p.core.build := by
  unfold Port.edge; split <;> [skip; split] <;> simp
@[simp] theorem Port.edges_nil (p : Port) : Port.edges [] p = p := rfl
@[simp] theorem Port.edges_cons (pins : Pins) (rest : List Pins) (p : Port) :
    Port.edges (pins :: rest) p = Port.edges rest (p.edge pins) := rfl

end Sys2Proof.Machine
end

