-- ==== Sys2Proof/Laws/Results.lean ====
section
/-! SUPPORT. RESULT as a number: what each field update leaves. -/
namespace Sys2Proof.Machine

/-- The RESULT of a GEN response as a number, for two decimal digits. -/
theorem genResult_eq (hi lo : Nat) (h : hi ≤ 9) (l : lo ≤ 9) :
    genResult (10 * hi + lo) hi lo = BitVec.ofNat 32 (10 * hi + lo + 256 * hi + 4096 * lo) := by
  have key : ∀ a : Fin 10, ∀ b : Fin 10,
      genResult (10 * a + b) a b = BitVec.ofNat 32 (10 * a + b + 256 * a + 4096 * b) := by decide +kernel
  exact key ⟨hi, by omega⟩ ⟨lo, by omega⟩

/-- The RESULT of a CHK response as a number. -/
theorem chkResult_eq (b : Bool) : chkResult b = if b then 65536 else 0 := by cases b <;> decide +kernel

@[simp] theorem raise_status (e : Status) : (raise e).status = e := rfl
@[simp] theorem raise_result (e : Status) : (raise e).result = 0 := rfl
@[simp] theorem respondOk_status (r : ResultWord) : (respondOk r).status = .ok := rfl
@[simp] theorem respondOk_result (r : ResultWord) : (respondOk r).result = r := rfl

end Sys2Proof.Machine
end

