-- ==== Sys2Proof/Tests/Slice0.lean ====
section
/-! SUPPORT. The model's own tests: expected results come from spec/95_test_vectors.md and the rules named. After them, one
witness per statement that has hypotheses. -/
namespace Sys2Proof.Tests
open Sys2Proof Sys2Proof.Machine Sys2Proof.Safety

/-! ## WellFormed: an ill-formed term for each check -/

theorem test_wellFormed_refuses_small_width : (Instr.luhnGen 0).wellFormed 7 = false := by decide
theorem test_wellFormed_refuses_above_range : (Instr.verhGen 9223372036854775808).wellFormed 64 = false := by decide
theorem test_wellFormed_refuses_below_range : (Instr.luhnChk (-9223372036854775809)).wellFormed 64 = false := by decide
theorem test_wellFormed_admits_bounds :
    (Instr.verhChk 9223372036854775807).wellFormed 64 = true ∧ (Instr.verhChk (-128)).wellFormed 8 = true := by decide

/-! ## Decoding: words written out from spec/30_encoding.md R61 and R63, RSVD FN ENG -/

theorem test_decode_luhnGen_bits : decodeTableWord 72 0b10100000000 = some (.luhnGen 5) := by decide
theorem test_decode_verhGen_bits : decodeTableWord 72 0b10100000001 = some (.verhGen 5) := by decide
theorem test_decode_luhnChk_bits : decodeTableWord 72 0b10100000010 = some (.luhnChk 5) := by decide
theorem test_decode_verhChk_bits : decodeTableWord 72 0b10100000011 = some (.verhChk 5) := by decide
theorem test_decode_short_word : decodeTableWord 8 0x02 = some (.luhnChk 0) := by decide
theorem test_decode_refuses_bit7 : decode 64 { cmd := 0x80, operand := 0 } = .error (.illegalCommand 0x80) := by decide
/-- L2.5: VERH.GEN 0x8000000000000000 is x = -2^63. -/
theorem test_decode_most_negative :
    decodeTableWord 72 0x800000000000000001 = some (.verhGen (-9223372036854775808)) := by decide
/-- L2.5: raw REQ of LUHN.CHK -5. -/
theorem test_encode_negative :
    packRequest 64 (encode 64 (.luhnChk (-5))) = 0xFFFFFFFFFFFFFFFB02 := by decide
/-- A build with W = 8 reads 0xFB as -5. -/
theorem test_decode_width_8 : decode 8 { cmd := 0x02, operand := 0xFB } = .ok (.luhnChk (-5)) := by decide

/-! ## The commands, one step each: the request of the raw bits is performed right after reset -/

/-- The responses taken by the first step that performs the raw request. -/
def firstResponse (bits : Nat) : List Response :=
  match step (State.reset.withFetchWord 72 bits) with
  | .next t => t.taken
  | .fault _ => []
  | .refused _ => []

/-- P1.1. -/
theorem test_luhnGen_17893729 : firstResponse 0x000000000111096100 = [⟨.ok, 0x0000853A⟩] := by decide +kernel
/-- L2.1: a non-zero base whose check value is 0. -/
theorem test_luhnGen_sum_100 : luhnGen defaultMemory 199999999999 = ⟨.ok, 0x00000000⟩ := by decide +kernel
/-- P2.4: position 7 is not reached, seven digits. -/
theorem test_verhGen_1234567 : firstResponse 0x000000000012D68701 = [⟨.ok, 0x00007961⟩] := by decide +kernel
/-- L2.3: OPMAX, 19 digits, rows wrap twice. -/
theorem test_verhGen_opMax : verhGen defaultMemory 9223372036854775807 = ⟨.ok, 0x0000442C⟩ := by decide +kernel
/-- P1.2. -/
theorem test_luhnChk_match : firstResponse 0x000000006AA7AA1E02 = [⟨.ok, 0x00010000⟩] := by decide +kernel
/-- L2.5: INVALID_INPUT before TOO_SHORT. -/
theorem test_luhnChk_negative : firstResponse 0xFFFFFFFFFFFFFFFB02 = [⟨.invalidInput, 0⟩] := by decide +kernel
/-- P2.3: the check digits swapped. -/
theorem test_verhChk_swapped : firstResponse 0x0000000000005C5B03 = [⟨.ok, 0x00000000⟩] := by decide +kernel
/-- P3.4: the composite of base 0. -/
theorem test_verhChk_47 : firstResponse 0x000000000000002F03 = [⟨.tooShort, 0⟩] := by decide +kernel
/-- P3.2: ILLEGAL_COMMAND is checked first. -/
theorem test_illegal_command : firstResponse 0xFFFFFFFFFFFFFFFB04 = [⟨.illegalCommand, 0⟩] := by decide +kernel
/-- L2.5: packed responses. -/
theorem test_packResponse : packResponse ⟨.ok, 0x0000853A⟩ = 0x00000853A ∧ packResponse ⟨.tooShort, 0⟩ = 0x200000000 := by
  decide +kernel

/-! ## ROMs, digits, datapaths -/

/-- L2.6. -/
theorem test_rom_entries :
    dRead defaultMemory 1 5 = 6 ∧ dRead defaultMemory 5 1 = 9 ∧ dRead defaultMemory 7 8 = 4 ∧
    dRead defaultMemory 8 7 = 1 ∧ pRead defaultMemory 2 0 = 5 ∧ invRead defaultMemory 2 = 3 := by decide +kernel
/-- L2.6: single folds. -/
theorem test_folds :
    vFold defaultMemory [0] = 1 ∧ vFold defaultMemory [0, 4] = 7 ∧ vFold defaultMemory [1, 5] = 0 := by decide +kernel
/-- R106: "0236" would give first digit 6, "236" gives 3. -/
theorem test_fold_leading_zero :
    verhFirst defaultMemory [0, 2, 3, 6] = 6 ∧ verhFirst defaultMemory [2, 3, 6] = 3 := by decide +kernel
theorem test_dec : dec 0 = [0] ∧ dec 1000000 = [1, 0, 0, 0, 0, 0, 0] := by decide
/-- L2.7, from working registers that hold something else. -/
theorem test_accumulator : luhnAccumulator defaultMemory ⟨7, 1, 99⟩ 199999999999 = 0 := by decide +kernel
/-- L2.7. -/
theorem test_pipeline : verhPipeline defaultMemory ⟨7, 5, 1, 2, 3⟩ 236 = (3, 4) := by decide +kernel

/-! ## The port -/

/-- A block with the default ROMs: its depth, its queue, the host's pending requests and the schedule. -/
def block (depth : Nat) (ifq pending : List Request) (schedule : List Move) : State :=
  { build := ⟨64, depth⟩, mem := defaultMemory, ifq := ifq, pending := pending, schedule := schedule, taken := [] }

/-- VERH.GEN 236. -/
def reqA : Request := ⟨0x01, 236⟩
/-- VERH.CHK 23634. -/
def reqB : Request := ⟨0x03, 23634⟩
/-- .req 0xFF, 17. -/
def reqBad : Request := ⟨0xFF, 17⟩

/-- P4 step 3: a full port takes no request, and the host holds it. -/
theorem test_full_port_holds_request :
    step (block 2 [reqA, reqA] [reqB] [.accept]) = .next (block 2 [reqA, reqA] [reqB] []) := rfl
/-- P4 step 6: both requests are lost. -/
theorem test_reset_loses_requests : step (block 2 [reqA, reqB] [] [.reset]) = .next (block 2 [] [] []) := rfl

/-! ## The request syntax of spec/30_encoding.md R68 -/

theorem test_assemble_mnemonic :
    assembleLine 64 "VERH.CHK 23634 ; a comment".toList = .ok (some reqB) := by decide +kernel
theorem test_assemble_raw : assembleLine 64 ".req 0xFF, 17".toList = .ok (some reqBad) := by decide +kernel
theorem test_assemble_hex_is_raw :
    assembleLine 64 "LUHN.GEN 0xFFFFFFFFFFFFFFFF".toList = assembleLine 64 "LUHN.GEN -1".toList := by decide +kernel
theorem test_assemble_out_of_range :
    assembleLine 8 "LUHN.GEN 128".toList = .error .outOfRange ∧
    assembleLine 64 ".req 256, 0".toList = .error .outOfRange ∧
    assembleLine 64 "LUHN.GET 1".toList = .error .notOfTheGrammar := by decide +kernel
theorem test_listing : listing ⟨.ok, 0x0000853A⟩ = "-> OK, RESULT=0x0000853A".toList := by decide +kernel

/-! ## Witnesses: states and operands that meet all the hypotheses of a statement -/

theorem witness_DecodeOfEncodeIsTheCommand :
    (Instr.luhnGen (-9223372036854775808)).wellFormed 64 = true ∧ (Instr.verhChk 127).wellFormed 8 = true := by decide
theorem witness_EncodeOfDecodeIsTheRequest :
    8 ≤ 8 ∧ fits 8 ⟨0x03, 255⟩ ∧ decode 8 ⟨0x03, 255⟩ = .ok (.verhChk (-1)) := by decide
theorem witness_PackedFieldsStandWhereTheFormatSays : fits 64 ⟨0xFF, 2 ^ 64 - 1⟩ := by decide
theorem witness_AssemblerRefusesAndNeverTruncates :
    8 ≤ 8 ∧ assemble 8 (.command true false (.decimal (-128))) = .ok ⟨0x02, 128⟩ ∧
    assemble 8 (.command true false (.decimal 128)) = .error .outOfRange ∧
    assemble 8 (.command false true (.hex 255)) = .ok ⟨0x01, 255⟩ ∧
    assemble 8 (.command false true (.hex 256)) = .error .outOfRange ∧
    assemble 8 (.raw 255 (.hex 255)) = .ok ⟨0xFF, 255⟩ ∧ assemble 8 (.raw 256 (.hex 0)) = .error .outOfRange ∧
    assemble 8 (.raw 4 (.decimal (-5))) = .ok ⟨0x04, 0xFB⟩ ∧ assemble 8 (.raw 4 (.decimal (-129))) = .error .outOfRange := by
  decide +kernel
theorem witness_StepRunsTheDecodedCommand :
    (block 1 [reqA] [] [.deliver]).schedule = .deliver :: [] ∧ (block 1 [reqA] [] [.deliver]).ifq = reqA :: [] ∧
    decode (block 1 [reqA] [] [.deliver]).build.w reqA = .ok (.verhGen 236) := by decide
theorem witness_DeliverAnswersExecOfTheHead :
    (block 2 [reqBad, reqA] [] [.deliver]).schedule = .deliver :: [] ∧
    (block 2 [reqBad, reqA] [] [.deliver]).ifq = reqBad :: [reqA] := by decide
theorem witness_AcceptAppends_room :
    (block 2 [reqA] [reqB] [.accept]).schedule = .accept :: [] ∧ (block 2 [reqA] [reqB] [.accept]).pending = reqB :: [] ∧
    (block 2 [reqA] [reqB] [.accept]).ifq.length < (block 2 [reqA] [reqB] [.accept]).build.qdepth := by decide
theorem witness_AcceptAppends_full :
    (block 1 [reqA] [reqB] [.accept]).schedule = .accept :: [] ∧ (block 1 [reqA] [reqB] [.accept]).pending = reqB :: [] ∧
    ¬ (block 1 [reqA] [reqB] [.accept]).ifq.length < (block 1 [reqA] [reqB] [.accept]).build.qdepth := by decide
theorem witness_AcceptAppends_no_request :
    (block 1 [] [] [.accept]).schedule = .accept :: [] ∧ (block 1 [] [] [.accept]).pending = [] := by decide
theorem witness_AcceptAppends_no_head :
    (block 1 [] [] [.deliver]).schedule = .deliver :: [] ∧ (block 1 [] [] [.deliver]).ifq = [] := by decide
theorem witness_AcceptAppends_idle : State.reset.schedule = [] := by decide
theorem witness_ResetEmptiesTheQueueOnly : (block 2 [reqA, reqB] [] [.reset]).schedule = .reset :: [] := by decide
theorem witness_FirstResponseAfterResetAnswersFirstRequest :
    [reqB].length + 1 ≤ (block 2 [reqB] [reqA, reqB, reqBad] [.reset, .accept, .accept, .deliver]).build.qdepth ∧
    (block 2 [reqB] [reqA, reqB, reqBad] [.reset, .accept, .accept, .deliver]).schedule =
      .reset :: (List.replicate ([reqB].length + 1) .accept ++ .deliver :: []) ∧
    (block 2 [reqB] [reqA, reqB, reqBad] [.reset, .accept, .accept, .deliver]).pending = reqA :: ([reqB] ++ [reqBad]) := by
  decide
theorem witness_AcceptThenDeliverIsOneTransaction :
    (block 1 [] [reqA] [.accept, .deliver]).build.qdepth = 1 ∧ (block 1 [] [reqA] [.accept, .deliver]).ifq = [] ∧
    (block 1 [] [reqA] [.accept, .deliver]).schedule = .accept :: .deliver :: [] ∧
    (block 1 [] [reqA] [.accept, .deliver]).pending = reqA :: [] := by decide
theorem witness_LuhnGenGivesTheCheckValue :
    State.reset.mem.lt = romOfRows tableLT ∧ luhnByRule 17893729 = 58 ∧ luhnByRule 0 = 0 := by
  refine ⟨rfl, ?_, ?_⟩ <;> norm_num [luhnByRule, sumByRule, termByRule, List.zipIdx]
theorem witness_LuhnChkComparesTheCheckValue :
    State.reset.mem.lt = romOfRows tableLT ∧ luhnByRule (198 / 100) = 198 % 100 ∧ luhnByRule (100 / 100) ≠ 100 % 100 := by
  refine ⟨rfl, ?_, ?_⟩ <;> norm_num [luhnByRule, sumByRule, termByRule, List.zipIdx]
theorem witness_VerhGenGivesTheTwoDigits :
    State.reset.mem.d = romOfRows tableD ∧ State.reset.mem.p = romOfRows tableP ∧
    State.reset.mem.inv = romOfRows tableInv ∧ verhByRule 236 = (3, 4) ∧ verhByRule 0 = (4, 7) := by
  refine ⟨rfl, rfl, rfl, ?_, ?_⟩ <;>
    norm_num [verhByRule, digitsByRule, foldByRule, dihedral, sigmaPow, sigma, inverseByRule]
theorem witness_VerhChkComparesTheTwoDigits :
    State.reset.mem.d = romOfRows tableD ∧ State.reset.mem.p = romOfRows tableP ∧
    State.reset.mem.inv = romOfRows tableInv ∧ 10 * (verhByRule (150 / 100)).1 + (verhByRule (150 / 100)).2 = 150 % 100 := by
  refine ⟨rfl, rfl, rfl, ?_⟩
  norm_num [verhByRule, digitsByRule, foldByRule, dihedral, sigmaPow, sigma, inverseByRule]
/-- Legal ROMs that are not the default ones: D all zeros. -/
theorem witness_VerhCommandsFollowAnyLegalRoms :
    defaultMemory.legal = true ∧
    ({ defaultMemory with d := romOfRows (List.replicate 10 (List.replicate 10 0)) } : Memory).legal = true ∧
    verhByTables defaultMemory 236 = (3, 4) := by
  refine ⟨defaultMemory_legal, by decide +kernel, ?_⟩
  have h : digitsByRule 236 = [6, 3, 2] := by norm_num [digitsByRule]
  simp only [verhByTables, h]
  decide +kernel
theorem witness_ResultHasTheLayoutOfTheSpec :
    defaultMemory.legal = true ∧ (execRequest defaultMemory 64 reqA).status = .ok ∧ cmdFn reqA.cmd = false ∧
    (execRequest defaultMemory 64 reqB).status = .ok ∧ cmdFn reqB.cmd = true ∧
    (execRequest defaultMemory 64 reqBad).status ≠ .ok := by decide +kernel
theorem witness_NegativeOperandIsInvalidInput :
    1 ≤ 8 ∧ (execRequest defaultMemory 8 ⟨0x00, 128⟩).status = .invalidInput ∧
    (execRequest defaultMemory 8 ⟨0x00, 127⟩).status = .ok := by decide +kernel
theorem witness_ShortCompositeIsTooShort :
    (execRequest defaultMemory 64 ⟨0x02, 99⟩).status = .tooShort ∧
    (execRequest defaultMemory 64 ⟨0x02, 100⟩).status = .ok := by decide +kernel
theorem witness_IllegalCommandIsAnswered :
    (block 1 [⟨0x04, 5⟩] [] [.deliver]).schedule = .deliver :: [] ∧ (block 1 [⟨0x04, 5⟩] [] [.deliver]).ifq = ⟨0x04, 5⟩ :: [] ∧
    0x04 ≤ (0x04 : BitVec 8).toNat ∧ (0x03 : BitVec 8).toNat < 0x04 := by decide
theorem witness_MismatchIsNoError :
    100 ≤ operandValue 64 ⟨0x02, 100⟩ ∧ luhnCheck defaultMemory (100 / 100) ≠ 100 % 100 ∧
    100 ≤ operandValue 64 ⟨0x03, 23643⟩ ∧ verhCheck defaultMemory (23643 / 100) ≠ 23643 % 100 := by decide +kernel
theorem witness_ErrorLeavesTheNextRequestAlone :
    (block 2 [reqBad, reqA] [] [.deliver, .deliver]).schedule = .deliver :: .deliver :: [] ∧
    (block 2 [reqBad, reqA] [] [.deliver, .deliver]).ifq = reqBad :: reqA :: [] ∧
    (execRequest defaultMemory 64 reqBad).status ≠ .ok := by decide +kernel
theorem witness_NoStepWritesARom : step State.reset = .next State.reset := rfl
theorem witness_EveryStepKeepsTheInvariant :
    Inv (block 2 [reqA] [reqB] [.accept]) ∧
    step (block 2 [reqA] [reqB] [.accept]) = .next (block 2 [reqA, reqB] [] []) := by
  refine ⟨?_, rfl⟩
  decide +kernel
theorem witness_ResponsesComeInAcceptanceOrder :
    Move.reset ∉ (block 1 [] [reqA] [.accept, .deliver]).schedule.take 2 ∧
    run 2 (block 1 [] [reqA] [.accept, .deliver]) =
      .next { block 1 [] [] [] with taken := [⟨.ok, 0x00004322⟩] } ∧
    finished { block 1 [] [] [] with taken := [⟨.ok, 0x00004322⟩] } := by
  refine ⟨by decide, ?_, by decide⟩
  have h : execRequest defaultMemory 64 reqA = ⟨.ok, 0x00004322⟩ := by decide +kernel
  rw [← h]
  rfl
theorem witness_ResponseDependsOnItsRequestAlone :
    (block 1 [reqBad] [] [.deliver]).mem = (block 2 [reqBad, reqA] [] [.deliver]).mem ∧
    (block 1 [reqBad] [] [.deliver]).build.w = (block 2 [reqBad, reqA] [] [.deliver]).build.w ∧
    (block 1 [reqBad] [] [.deliver]).ifq = reqBad :: [] ∧ (block 2 [reqBad, reqA] [] [.deliver]).ifq = reqBad :: [reqA] ∧
    (block 1 [reqBad] [] [.deliver]).schedule = .deliver :: [] ∧
    (block 2 [reqBad, reqA] [] [.deliver]).schedule = .deliver :: [] ∧
    step (block 1 [reqBad] [] [.deliver]) = .next { block 1 [] [] [] with taken := [⟨.illegalCommand, 0⟩] } ∧
    step (block 2 [reqBad, reqA] [] [.deliver]) = .next { block 2 [reqA] [] [] with taken := [⟨.illegalCommand, 0⟩] } :=
  ⟨rfl, rfl, rfl, rfl, rfl, rfl, rfl, rfl⟩
theorem witness_TakingResponsesDrainsTheQueue :
    (block 2 [reqA, reqB] [] [.deliver, .deliver, .accept]).schedule =
      List.replicate (block 2 [reqA, reqB] [] [.deliver, .deliver, .accept]).ifq.length .deliver ++ [.accept] := rfl
theorem witness_LegalRomsReadDigits : defaultMemory.legal = true := defaultMemory_legal
theorem witness_LuhnRoundTrip : defaultMemory.legal = true ∧ (17893729 : Nat) ≠ 0 := ⟨defaultMemory_legal, by decide⟩
theorem witness_VerhoeffRoundTrip : defaultMemory.legal = true ∧ (236 : Nat) ≠ 0 := ⟨defaultMemory_legal, by decide⟩
theorem witness_FoldStaysADigit : readsDigits defaultMemory ∧ isDigits [0, 9] := by
  refine ⟨⟨?_, ?_, ?_⟩, by decide⟩
  · decide +kernel
  · intro k d hk hd
    have h : ∀ k : Fin 8, ∀ d : Fin 10, (pRead defaultMemory k d).toNat ≤ 9 := by decide +kernel
    exact h ⟨k, by omega⟩ ⟨d, by omega⟩
  · decide +kernel
/-- Two memories that differ at an index no operation forms. -/
theorem witness_UnformedIndexesChangeNoResponse :
    readsDigits defaultMemory ∧ sameEntries defaultMemory { defaultMemory with inv := defaultMemory.inv ++ [(15, 3)] } := by
  refine ⟨witness_FoldStaysADigit.1, fun _ _ _ _ => rfl, fun _ _ _ _ => rfl, fun _ _ _ _ => rfl, ?_⟩
  decide +kernel
theorem witness_DecIsTheDecimalText : 0 < 236 ∧ 2 < (dec 236).length := by decide
theorem witness_OperandBoundsOfTheBuild :
    (Instr.verhGen 127).wellFormed 8 = true ∧ 0 ≤ (Instr.verhGen 127).operand ∧ 11 ≤ 11 := by decide
theorem witness_LuhnDatapathsComputeLuhnCheck :
    defaultMemory.lt = romOfRows tableLT ∧ 127 ≤ Config.opMax 8 := ⟨rfl, by decide⟩
/-- D of the default ROMs by its closed form, entry by entry (spec/20_memory.md R43). -/
theorem default_dRead (r c : Fin 10) :
    dRead defaultMemory (BitVec.ofNat 4 r) (BitVec.ofNat 4 c) = BitVec.ofNat 4 (dihedral r c) := by
  revert r c
  decide +kernel
theorem dihedral_lt (r c : Fin 10) : dihedral r c < 10 := by
  revert r c
  decide
/-- The closed form is associative. -/
theorem dihedral_assoc (a b c : Fin 10) : dihedral (dihedral a b) c = dihedral a (dihedral b c) := by
  revert a b c
  decide +kernel
/-- All the premises of the pipeline together, met by the default ROMs. -/
theorem witness_PipelineComputesVerhDigits :
    readsDigits defaultMemory ∧ dAssociative defaultMemory ∧ dIdentity defaultMemory := by
  refine ⟨witness_FoldStaysADigit.1, ?_, by decide +kernel⟩
  intro a b c ha hb hc
  have key (a b c : Fin 10) :
      dRead defaultMemory (dRead defaultMemory (BitVec.ofNat 4 a) (BitVec.ofNat 4 b)) (BitVec.ofNat 4 c) =
        dRead defaultMemory (BitVec.ofNat 4 a) (dRead defaultMemory (BitVec.ofNat 4 b) (BitVec.ofNat 4 c)) := by
    have h1 := default_dRead ⟨dihedral a b, dihedral_lt a b⟩ c
    have h2 := default_dRead a ⟨dihedral b c, dihedral_lt b c⟩
    rw [default_dRead a b, default_dRead b c, h1, h2]
    simp only [dihedral_assoc]
  simpa using key ⟨a.toNat, by omega⟩ ⟨b.toNat, by omega⟩ ⟨c.toNat, by omega⟩
theorem witness_LeadingZeroMattersButAtIdentityRow :
    isDigits [1, 2, 3, 4, 5, 6, 7] ∧ [1, 2, 3, 4, 5, 6, 7].length % 8 = 7 ∧ isDigits [2, 3, 6] := by decide
theorem witness_CompositeIsBaseThenCheckDigits : 99 ≤ 99 ∧ 1 ≤ 1 ∧ 92233720368547757 ≤ 92233720368547757 := by decide
theorem witness_LuhnDetectsSingleDigitErrors :
    defaultMemory.lt = romOfRows tableLT ∧ 100 ≤ 198 ∧ 100 ≤ 298 ∧ digit 198 2 ≠ digit 298 2 ∧ (∀ i, i ≠ 2 → digit 198 i = digit 298 i) ∧
    luhnChk defaultMemory 198 = ⟨.ok, 65536⟩ := by
  refine ⟨rfl, by decide, by decide, by decide, ?_, by decide +kernel⟩
  intro i hi
  match i with
  | 0 => rfl
  | 1 => rfl
  | i + 3 =>
    have h : 1000 ≤ 10 ^ (i + 3) := Nat.pow_le_pow_right (by norm_num : 0 < 10) (by omega : 3 ≤ i + 3)
    simp [digit, Nat.div_eq_of_lt (by omega : 198 < 10 ^ (i + 3)), Nat.div_eq_of_lt (by omega : 298 < 10 ^ (i + 3))]
theorem witness_VerhoeffDetectsSingleDigitErrors :
    100 ≤ 150 ∧ (dec 150).length = (dec 151).length ∧ digit 150 0 ≠ digit 151 0 ∧
    (∀ i, i ≠ 0 → digit 150 i = digit 151 i) ∧ verhChk defaultMemory 150 = ⟨.ok, 65536⟩ := by
  refine ⟨by decide, by decide, by decide, ?_, by decide +kernel⟩
  intro i hi
  match i with
  | i + 1 => simp [digit, pow_succ, Nat.mul_comm (10 ^ i), ← Nat.div_div_eq_div_mul]
/-- A base digit changed. -/
theorem witness_VerhoeffDetectsSingleDigitErrors_base :
    (dec 150).length = (dec 250).length ∧ digit 150 2 ≠ digit 250 2 ∧ (∀ i, i ≠ 2 → digit 150 i = digit 250 i) := by
  refine ⟨by decide, by decide, ?_⟩
  intro i hi
  match i with
  | 0 => rfl
  | 1 => rfl
  | i + 3 => simp [digit, pow_succ, Nat.mul_assoc, Nat.mul_comm (10 ^ i), ← Nat.div_div_eq_div_mul]
theorem witness_VerhoeffDetectsAdjacentSwaps :
    100 ≤ 23634 ∧ (dec 23634).length = (dec 23643).length ∧ digit 23634 0 ≠ digit 23634 1 ∧
    digit 23643 0 = digit 23634 1 ∧ digit 23643 1 = digit 23634 0 ∧
    (∀ i, i ≠ 0 → i ≠ 1 → digit 23634 i = digit 23643 i) ∧ verhChk defaultMemory 23634 = ⟨.ok, 65536⟩ := by
  refine ⟨by decide, by decide, by decide, by decide, by decide, ?_, by decide +kernel⟩
  intro i h0 h1
  match i with
  | i + 2 => simp [digit, pow_succ, Nat.mul_assoc, Nat.mul_comm (10 ^ i), ← Nat.div_div_eq_div_mul]
/-- An edge at which the host sends nothing and takes nothing. -/
def quiet (cmd : BitVec 8) (operand : Nat) : Pins := ⟨false, false, cmd, operand, false⟩
/-- A request transfers alone. -/
theorem witness_ClockEdgeIsItsPortMoves :
    (⟨block 1 [] [reqA] [.accept], 0, 0⟩ : Port).core.pending = (⟨false, true, 0x01, 236, false⟩ : Pins).request :: [] ∧
    (⟨block 1 [] [reqA] [.accept], 0, 0⟩ : Port).core.schedule =
      (⟨block 1 [] [reqA] [.accept], 0, 0⟩ : Port).edgeMoves ⟨false, true, 0x01, 236, false⟩ ++ [] := ⟨rfl, rfl⟩
/-- An idle host: nothing transfers, and nothing need be pending. -/
theorem witness_ClockEdge_idle :
    (⟨block 1 [] [] [], 0, 0⟩ : Port).requestTransfers (quiet 0 0) = false ∧
    (⟨block 1 [] [] [], 0, 0⟩ : Port).core.schedule = (⟨block 1 [] [] [], 0, 0⟩ : Port).edgeMoves (quiet 0 0) ++ [] :=
  ⟨rfl, rfl⟩
/-- A reset. -/
theorem witness_ClockEdge_reset :
    (⟨block 1 [reqA] [] [.reset], 0, 0⟩ : Port).requestTransfers ⟨true, true, 0x01, 236, true⟩ = false ∧
    (⟨block 1 [reqA] [] [.reset], 0, 0⟩ : Port).core.schedule =
      (⟨block 1 [reqA] [] [.reset], 0, 0⟩ : Port).edgeMoves ⟨true, true, 0x01, 236, true⟩ ++ [] := ⟨rfl, rfl⟩
/-- Both transfers at one edge, for any LATENCY. -/
theorem witness_ClockEdge_both :
    (⟨block 2 [reqBad] [reqA] [.deliver, .accept], Config.latency 0, 0⟩ : Port).core.pending =
      (⟨false, true, 0x01, 236, true⟩ : Pins).request :: [] ∧
    (⟨block 2 [reqBad] [reqA] [.deliver, .accept], Config.latency 0, 0⟩ : Port).core.schedule =
      (⟨block 2 [reqBad] [reqA] [.deliver, .accept], Config.latency 0, 0⟩ : Port).edgeMoves
        ⟨false, true, 0x01, 236, true⟩ ++ [] := by
  refine ⟨rfl, ?_⟩
  simp [Port.edgeMoves, Port.responseTransfers, Port.requestTransfers, Port.reqReady, Port.rspOffer, State.ready, block]
/-- For any LATENCY: a head that has waited it out. -/
theorem witness_PortKeepsItsSignalDuties :
    (⟨block 1 [reqBad] [] [], Config.latency 0, 0⟩ : Port).core.ifq.length = 1 ∧
    (⟨block 1 [reqBad] [] [], Config.latency 0, 0⟩ : Port).rspOffer (quiet 0 0) = some ⟨.illegalCommand, 0⟩ ∧
    (quiet 0 0).rspReady = false ∧ (quiet 0 0).rst = false ∧ (⟨true, true, 0, 0, true⟩ : Pins).rst = true := by
  refine ⟨rfl, ?_, rfl, rfl, rfl⟩
  simp only [Port.rspOffer, block, quiet, le_refl, and_self, if_true]
  rfl
/-- Edges at which the host sends requests all the while, for the first clause and for the second. -/
theorem witness_ResponseIsOfferedInFiniteTime (n : Nat) :
    (⟨block 2 [reqA] [] [], 0, 0⟩ : Port).core.ifq = reqA :: [] ∧ (quiet 0 0).rst = false ∧
    (List.replicate n (⟨false, true, 0x03, 23634, true⟩ : Pins)).length = n ∧
    (∀ e ∈ List.replicate n (⟨false, true, 0x03, 23634, true⟩ : Pins), e.rst = false) ∧
    n ≤ (List.replicate (n + 1) (⟨false, true, 0x03, 23634, false⟩ : Pins)).length ∧
    (∀ e ∈ List.replicate (n + 1) (⟨false, true, 0x03, 23634, false⟩ : Pins), e.rst = false ∧ e.rspReady = false) := by
  refine ⟨rfl, rfl, by simp, ?_, by simp, ?_⟩ <;> simp +contextual

end Sys2Proof.Tests
end

