-- ==== Sys2Proof/Proofs/Scope.lean ====
section
/-! The decimal text and the derived bounds of spec/00_scope.md (R6, R9). The digit split is the library's `Nat.digits`, and
`dec` is the digit split reversed; each fact is proved of the split and carried over. -/
namespace Sys2Proof.Machine
open Sys2Proof Sys2Proof.Safety

@[simp] theorem dec_zero : dec 0 = [0] := by simp [dec, digitsLow_eq]

theorem digitsLow_of_pos {x : Nat} (h : 0 < x) : digitsLow x = Nat.digits 10 x := by
  rw [digitsLow_eq, if_neg h.ne']

/-! ### The text has digits only, spells its number and has no leading zero -/

theorem isDigits_digitsLow (x : Nat) : isDigits (digitsLow x) := by
  intro d hd
  rcases Nat.eq_zero_or_pos x with rfl | hx
  · simp_all [digitsLow_eq]
  · rw [digitsLow_of_pos hx] at hd
    exact Nat.le_of_lt_succ (Nat.digits_lt_base (by norm_num) hd)

theorem isDigits_dec (x : Nat) : isDigits (dec x) :=
  fun d hd => isDigits_digitsLow x d (List.mem_reverse.mp hd)

theorem ofDigits_digitsLow (x : Nat) : Nat.ofDigits 10 (digitsLow x) = x := by
  rcases Nat.eq_zero_or_pos x with rfl | hx
  · simp [digitsLow_eq]
  · rw [digitsLow_of_pos hx, Nat.ofDigits_digits]

/-- Reading most significant digit first is reading the reversed list by weights. -/
theorem spells_reverse (s : List Nat) : spells s.reverse = Nat.ofDigits 10 s := by
  simp [spells, List.foldl_reverse, Nat.ofDigits_eq_foldr, Nat.add_comm]

@[simp] theorem spells_dec (x : Nat) : spells (dec x) = x := by
  rw [dec, spells_reverse, ofDigits_digitsLow]

theorem dec_head?_ne_zero {x : Nat} (hx : 0 < x) : ∀ d ∈ (dec x).head?, d ≠ 0 := by
  intro d hd
  rw [dec, List.head?_reverse, digitsLow_of_pos hx] at hd
  obtain ⟨_, rfl⟩ := List.mem_getLast?_eq_getLast hd
  exact Nat.getLast_digit_ne_zero 10 hx.ne'

/-! ### The digits by index -/

theorem digitsLow_getElem? {x i : Nat} (hi : i < (digitsLow x).length) : (digitsLow x)[i]? = some (digit x i) := by
  rcases Nat.eq_zero_or_pos x with rfl | hx
  · have h0 : i = 0 := by simpa [digitsLow_eq] using hi
    simp [h0, digitsLow_eq]
  · rw [digitsLow_of_pos hx] at hi ⊢
    rw [digit, ← Nat.getD_digits x i (by norm_num), List.getD_eq_getElem _ _ hi, List.getElem?_eq_getElem hi]

theorem dec_getElem?_rev {x i : Nat} (hi : i < (dec x).length) :
    (dec x)[(dec x).length - 1 - i]? = some (digit x i) := by
  rw [← List.getElem?_reverse hi, dec_reverse]
  exact digitsLow_getElem? (by simpa [dec] using hi)

/-! ### The bounds of the build -/

theorem dec_length_pos (x : Nat) : 0 < (dec x).length := by
  rcases Nat.eq_zero_or_pos x with rfl | hx
  · simp
  · rw [dec_length, if_neg hx.ne']
    exact List.length_pos_of_ne_nil (Nat.digits_ne_nil_iff_ne_zero.mpr hx.ne')

theorem dec_length_mono {x y : Nat} (h : x ≤ y) : (dec x).length ≤ (dec y).length := by
  rcases Nat.eq_zero_or_pos x with rfl | hx
  · rw [dec_zero]
    exact dec_length_pos y
  · rw [dec_length, dec_length, if_neg hx.ne', if_neg (by omega)]
    exact Nat.le_length_digits_le 10 x y h

theorem dec_length_le_nMax {w x : Nat} (h : x ≤ Config.opMax w) : (dec x).length ≤ nMax w := dec_length_mono h

theorem opMax_mono {w w' : Nat} (h : w ≤ w') : Config.opMax w ≤ Config.opMax w' :=
  Nat.sub_le_sub_right (Nat.pow_le_pow_right (by norm_num) (Nat.sub_le_sub_right h 1)) 1

theorem nMax_64 : nMax 64 = 19 := by
  rw [nMax, dec_length]
  norm_num [Config.opMax]

theorem nMax_32 : nMax 32 = 10 := by
  rw [nMax, dec_length]
  norm_num [Config.opMax]

/-- `operandFits` bounds an operand by OPMAX as an integer; a non-negative one is bounded as a natural number. -/
theorem operand_toNat_le_opMax {w : Nat} {i : Instr} (h : i.wellFormed w = true) :
    i.operand.toNat ≤ Config.opMax w := by
  simp only [Instr.wellFormed, operandFits, Bool.and_eq_true, decide_eq_true_eq] at h
  obtain ⟨-, -, hle⟩ := h
  have hpow : 1 ≤ 2 ^ (w - 1) := Nat.one_le_two_pow
  have hop : (Config.opMax w : Int) = 2 ^ (w - 1) - 1 := by simp [Config.opMax, Nat.cast_sub hpow]
  omega

end Sys2Proof.Machine

open Sys2Proof Sys2Proof.Machine Sys2Proof.Safety

/-- Settles O37: the digit split is the library's, and `dec` is its reverse. -/
theorem decIsTheDecimalText : Obligations.DecIsTheDecimalText :=
  ⟨dec_zero, fun x =>
    ⟨isDigits_dec x, spells_dec x, dec_head?_ne_zero, fun _ hi => (dec_getElem?_rev hi).symm⟩⟩

/-- Settles O38: OPMAX grows with W, and the digit count with the number. -/
theorem operandBoundsOfTheBuild : Obligations.OperandBoundsOfTheBuild := by
  refine ⟨⟨by decide, nMax_64, by decide, nMax_32⟩, ?_, by decide, ?_, ?_⟩
  · intro w hw
    exact le_trans (by decide) (opMax_mono hw)
  · intro w hw
    exact le_trans (by decide) (opMax_mono hw)
  · intro w i hwf _
    have hle := operand_toNat_le_opMax hwf
    exact ⟨hle, dec_length_le_nMax hle⟩
end

section
/-! The state and the response of spec/10_state.md (R20, R23, R25 to R27, R29, R31). Every update of the state keeps the
invariant; Exec is said once, as the five kinds of answer a request can get, and each fact about a response is read off
them. -/

/-! ### Every update of the state keeps the invariant -/

namespace Sys2Proof.Safety
open Sys2Proof Sys2Proof.Machine

theorem Inv.afterMove {s : State} (h : Inv s) (rest : List Move) : Inv (s.afterMove rest) := h

theorem Inv.respond {s : State} (h : Inv s) (rsp : Response) : Inv (s.respond rsp) := by
  obtain ⟨hbuild, hmem, hdepth, hifq, hpending⟩ := h
  refine ⟨hbuild, hmem, ?_, fun req hreq => hifq req (List.mem_of_mem_tail hreq), hpending⟩
  rw [State.respond_ifq, List.length_tail]
  exact le_trans (Nat.sub_le _ _) hdepth

theorem Inv.resetBlock {s : State} (h : Inv s) : Inv s.resetBlock := by
  obtain ⟨hbuild, hmem, -, -, hpending⟩ := h
  exact ⟨hbuild, hmem, by simp, by simp, hpending⟩

/-- An accept moves the offered request, which fits the wires, into a queue with room for it. -/
theorem Inv.accept {s : State} (h : Inv s) : Inv s.accept := by
  rcases s.accept_cases with ⟨-, hs⟩ | ⟨req, rest, hp, hroom, hs⟩ | ⟨_, _, -, -, hs⟩
  · rwa [hs]
  · obtain ⟨hbuild, hmem, -, hifq, hpending⟩ := h
    rw [hp, List.forall_mem_cons] at hpending
    rw [hs]
    refine ⟨hbuild, hmem, by simpa using hroom, ?_, hpending.2⟩
    rw [List.forall_mem_append, List.forall_mem_singleton]
    exact ⟨hifq, hpending.1⟩
  · rwa [hs]

theorem Inv.deliver {s t : State} (h : Inv s) (ht : deliver s = .next t) : Inv t := by
  rcases deliver_cases s with ⟨-, hs⟩ | ⟨_, _, _, -, -, hs⟩ | ⟨_, _, -, -, hs⟩ <;> rw [hs] at ht <;> cases ht
  · exact h
  · exact h.respond _
  · exact h.respond _

theorem Inv.step {s t : State} (h : Inv s) (ht : step s = .next t) : Inv t := by
  rcases step_cases s with ⟨-, hs⟩ | ⟨rest, -, hs⟩ | ⟨rest, -, hs⟩ | ⟨rest, -, hs⟩ <;> rw [hs] at ht
  · cases ht
    exact h
  · cases ht
    exact (h.afterMove rest).accept
  · exact (h.afterMove rest).deliver ht
  · cases ht
    exact (h.afterMove rest).resetBlock

theorem inv_reset : Inv State.reset :=
  ⟨by decide, defaultMemory_legal, by decide, by simp [State.reset], by simp [State.reset]⟩

end Sys2Proof.Safety

/-! ### The fields of CMD -/

namespace Sys2Proof

/-- A CMD byte is legal, with RSVD 0, exactly when it is one of the four numbers below 4 (spec/30_encoding.md R63). -/
theorem cmdRsvd_eq_zero_iff (cmd : BitVec 8) : cmdRsvd cmd = 0 ↔ cmd.toNat < 4 := by
  have hlt := cmd.isLt
  rw [← BitVec.toNat_inj, cmdRsvd, BitVec.extractLsb'_toNat, Nat.shiftRight_eq_div_pow]
  simp only [BitVec.ofNat_eq_ofNat, BitVec.toNat_ofNat]
  omega

/-- FN of a legal CMD parts the GEN bytes 0 and 1 from the CHK bytes 2 and 3. -/
theorem cmdFn_eq_true_iff {cmd : BitVec 8} (h : cmdRsvd cmd = 0) : cmdFn cmd = true ↔ 2 ≤ cmd.toNat := by
  rw [cmdRsvd_eq_zero_iff] at h
  rw [cmdFn, BitVec.getLsbD, Nat.testBit_eq_decide_div_mod_eq, decide_eq_true_eq]
  omega

/-- A legal CMD byte is its number, two bits: FN, then ENG. -/
theorem cmd_toNat_of_legal {cmd : BitVec 8} (h : cmdRsvd cmd = 0) :
    cmd.toNat = 2 * (cmdFn cmd).toNat + (cmdEng cmd).toNat := by
  rw [cmdRsvd_eq_zero_iff] at h
  rw [cmdFn, cmdEng, BitVec.getLsbD, BitVec.getLsbD, Nat.toNat_testBit, Nat.toNat_testBit]
  omega

/-- A CMD byte is the one of its three fields (spec/30_encoding.md R61), for RSVD 0. -/
theorem cmd_eq_cmdOfFields_iff {cmd : BitVec 8} {fn eng : Bool} :
    cmd = cmdOfFields 0 fn eng ↔ cmdRsvd cmd = 0 ∧ cmdFn cmd = fn ∧ cmdEng cmd = eng := by
  constructor
  · rintro rfl
    exact Laws.CommandFields.fields_cmdOfFields fn eng
  · rintro ⟨hrsvd, rfl, rfl⟩
    obtain ⟨hrsvd', hfn, heng⟩ := Laws.CommandFields.fields_cmdOfFields (cmdFn cmd) (cmdEng cmd)
    rw [← BitVec.toNat_inj, cmd_toNat_of_legal hrsvd, cmd_toNat_of_legal hrsvd', hfn, heng]

end Sys2Proof

/-! ### Exec of a request: its five kinds of answer -/

namespace Sys2Proof.Machine
open Sys2Proof Sys2Proof.Safety

/-- The check value of the engine that ENG names. -/
def engineCheck (m : Memory) (eng : Bool) (x : Nat) : Nat := if eng then verhCheck m x else luhnCheck m x

/-- The tens and the units of the engine's check value: the two digits VERH computes, and the decimal parts of LUHN's. -/
def engineDigits (m : Memory) (eng : Bool) (x : Nat) : Nat × Nat :=
  if eng then ((verhDigits m x).1.toNat, (verhDigits m x).2.toNat) else (luhnCheck m x / 10, luhnCheck m x % 10)

theorem engineCheck_eq (m : Memory) (eng : Bool) (x : Nat) :
    engineCheck m eng x = 10 * (engineDigits m eng x).1 + (engineDigits m eng x).2 := by
  cases eng
  · exact (Nat.div_add_mod _ 10).symm
  · rfl

/-- A request with an illegal CMD is answered ILLEGAL_COMMAND. -/
theorem execRequest_of_illegal (m : Memory) (w : Nat) {req : Request} (h : cmdRsvd req.cmd ≠ 0) :
    execRequest m w req = raise .illegalCommand := if_pos h

/-- The response of a GEN command (spec/40_luhn.md R83, spec/41_verhoeff.md R103). -/
theorem responseOf_gen (m : Memory) (eng : Bool) (x : Int) :
    responseOf m (commandOf false eng x) =
      if x < 0 then raise .invalidInput
      else respondOk (genResult (engineCheck m eng x.toNat)
        (engineDigits m eng x.toNat).1 (engineDigits m eng x.toNat).2) := by
  cases eng <;> rfl

/-- The response of a CHK command (spec/40_luhn.md R84, spec/41_verhoeff.md R104). -/
theorem responseOf_chk (m : Memory) (eng : Bool) (x : Int) :
    responseOf m (commandOf true eng x) =
      if x < 0 then raise .invalidInput
      else if x < 100 then raise .tooShort
      else respondOk (chkResult (decide (engineCheck m eng (x.toNat / 100) = x.toNat % 100))) := by
  cases eng <;> rfl

/-- Every command answers a negative operand with INVALID_INPUT. -/
theorem responseOf_of_neg (m : Memory) (fn eng : Bool) {x : Int} (hneg : x < 0) :
    responseOf m (commandOf fn eng x) = raise .invalidInput := by
  cases fn
  · rw [responseOf_gen, if_pos hneg]
  · rw [responseOf_chk, if_pos hneg]

/-- Exec of a legal request is the response of its command: the check for a negative operand that Exec makes first is
one each operation makes. -/
theorem execRequest_of_legal (m : Memory) (w : Nat) {req : Request} (h : cmdRsvd req.cmd = 0) :
    execRequest m w req = responseOf m (commandOf (cmdFn req.cmd) (cmdEng req.cmd) (operandValue w req)) := by
  rw [execRequest, if_neg (not_not.mpr h)]
  by_cases hneg : operandValue w req < 0
  · rw [if_pos hneg, responseOf_of_neg _ _ _ hneg]
  · rw [if_neg hneg]
    cases cmdFn req.cmd <;> cases cmdEng req.cmd <;> rfl

/-- What Exec can answer: one of the three errors, or the RESULT of a GEN or of a CHK. -/
theorem execRequest_cases (m : Memory) (w : Nat) (req : Request) :
    (cmdRsvd req.cmd ≠ 0 ∧ execRequest m w req = raise .illegalCommand) ∨
    (cmdRsvd req.cmd = 0 ∧ operandValue w req < 0 ∧ execRequest m w req = raise .invalidInput) ∨
    (cmdRsvd req.cmd = 0 ∧ cmdFn req.cmd = true ∧ 0 ≤ operandValue w req ∧ operandValue w req < 100 ∧
      execRequest m w req = raise .tooShort) ∨
    (cmdRsvd req.cmd = 0 ∧ cmdFn req.cmd = false ∧ 0 ≤ operandValue w req ∧
      execRequest m w req = respondOk (genResult (engineCheck m (cmdEng req.cmd) (operandValue w req).toNat)
        (engineDigits m (cmdEng req.cmd) (operandValue w req).toNat).1
        (engineDigits m (cmdEng req.cmd) (operandValue w req).toNat).2)) ∨
    (cmdRsvd req.cmd = 0 ∧ cmdFn req.cmd = true ∧ 100 ≤ operandValue w req ∧
      execRequest m w req = respondOk (chkResult (decide
        (engineCheck m (cmdEng req.cmd) ((operandValue w req).toNat / 100) = (operandValue w req).toNat % 100)))) := by
  by_cases hrsvd : cmdRsvd req.cmd = 0
  case neg => exact .inl ⟨hrsvd, execRequest_of_illegal m w hrsvd⟩
  rw [execRequest_of_legal m w hrsvd]
  cases hfn : cmdFn req.cmd
  · rw [responseOf_gen]
    by_cases hneg : operandValue w req < 0
    · exact .inr (.inl ⟨hrsvd, hneg, if_pos hneg⟩)
    · exact .inr (.inr (.inr (.inl ⟨hrsvd, rfl, by omega, if_neg hneg⟩)))
  · rw [responseOf_chk]
    by_cases hneg : operandValue w req < 0
    · exact .inr (.inl ⟨hrsvd, hneg, if_pos hneg⟩)
    · rw [if_neg hneg]
      by_cases hshort : operandValue w req < 100
      · exact .inr (.inr (.inl ⟨hrsvd, rfl, by omega, hshort, if_pos hshort⟩))
      · exact .inr (.inr (.inr (.inr ⟨hrsvd, rfl, by omega, if_neg hshort⟩)))

/-- The STATUS of a request, by the order of the checks (spec/30_encoding.md R66, spec/60_exceptions.md R135). -/
theorem execRequest_status (m : Memory) (w : Nat) (req : Request) :
    (execRequest m w req).status =
      if 4 ≤ req.cmd.toNat then .illegalCommand
      else if operandValue w req < 0 then .invalidInput
      else if 2 ≤ req.cmd.toNat ∧ operandValue w req ≤ 99 then .tooShort
      else .ok := by
  by_cases hrsvd : cmdRsvd req.cmd = 0
  case neg =>
    have hcmd : 4 ≤ req.cmd.toNat := not_lt.mp (mt (cmdRsvd_eq_zero_iff _).mpr hrsvd)
    rw [execRequest_of_illegal m w hrsvd, if_pos hcmd, raise_status]
  have hcmd : ¬ 4 ≤ req.cmd.toNat := not_le.mpr ((cmdRsvd_eq_zero_iff _).mp hrsvd)
  rw [if_neg hcmd]
  simp only [← cmdFn_eq_true_iff hrsvd]
  rcases execRequest_cases m w req with
    ⟨h, -⟩ | ⟨-, hneg, h⟩ | ⟨-, hfn, hpos, hshort, h⟩ | ⟨-, hfn, hpos, h⟩ | ⟨-, hfn, hlong, h⟩
  · exact absurd hrsvd h
  · rw [h, if_pos hneg, raise_status]
  · rw [h, if_neg (by omega), if_pos ⟨hfn, by omega⟩, raise_status]
  · rw [h, if_neg (by omega), if_neg (by simp [hfn]), respondOk_status]
  · rw [h, if_neg (by omega), if_neg (by omega), respondOk_status]

/-- STATUS stands in bits [35:32] of the packed response (spec/30_encoding.md R60). -/
theorem packResponse_status (rsp : Response) : (packResponse rsp).extractLsb' 32 4 = rsp.status.code :=
  BitVec.extractLsb'_append_eq_left

/-- The host that takes a response gets Exec of the head of IFQ (spec/70_reset_and_hazards.md R153). -/
theorem deliver_of_ifq_cons {s : State} {req : Request} {rest : List Request} (h : s.ifq = req :: rest) :
    deliver s = .next (s.respond (execRequest s.mem s.build.w req)) := by
  rcases decode_cases s.build.w req with ⟨hrsvd, hd⟩ | ⟨hrsvd, hd⟩
  · simp only [deliver, h, hd, execRequest_of_illegal _ _ hrsvd]
  · simp only [deliver, h, hd, execRequest_of_legal _ _ hrsvd, exec_eq_respond]

theorem step_of_deliver {s : State} {req : Request} {rest : List Request} {ms : List Move}
    (hs : s.schedule = .deliver :: ms) (hq : s.ifq = req :: rest) :
    step s = .next ((s.afterMove ms).respond (execRequest s.mem s.build.w req)) := by
  rw [step, hs]
  exact deliver_of_ifq_cons hq

/-! ### The fields of RESULT -/

/-- A field write sets the bits of the field to those of the value and leaves every other bit. -/
theorem setField_getLsbD (r : ResultWord) {hi lo : Nat} (hlo : lo ≤ hi) (v i : Nat) (hi' : i < 32) :
    (setField r hi lo v).getLsbD i = if lo ≤ i ∧ i ≤ hi then v.testBit (i - lo) else r.getLsbD i := by
  simp only [setField, BitVec.getLsbD_or, BitVec.getLsbD_and, BitVec.getLsbD_not, BitVec.getLsbD_shiftLeft,
    BitVec.getLsbD_ofNat, Nat.testBit_two_pow_sub_one]
  by_cases h : lo ≤ i ∧ i ≤ hi
  · have : i - lo < hi - lo + 1 := by omega
    have : i - lo < 32 := by omega
    have : ¬ i < lo := by omega
    simp [*]
  · rw [if_neg h]
    by_cases hil : i < lo
    · simp [*]
    · have : ¬ i - lo < hi - lo + 1 := by omega
      simp [*]

/-- No field of a GEN response holds bit 7 or any bit from 16 up. -/
theorem genResult_getLsbD_eq_false (check dhi dlo : Nat) {i : Nat} (hi : i = 7 ∨ 16 ≤ i) :
    (genResult check dhi dlo).getLsbD i = false := by
  by_cases h32 : i < 32
  · rw [genResult, setField_getLsbD _ (by decide) _ _ h32, if_neg (by omega),
      setField_getLsbD _ (by decide) _ _ h32, if_neg (by omega),
      setField_getLsbD _ (by decide) _ _ h32, if_neg (by omega)]
    simp
  · exact BitVec.getLsbD_of_ge _ _ (by omega)

theorem reservedBitsZero_of_getLsbD {r : ResultWord} (h7 : r.getLsbD 7 = false)
    (h17 : ∀ i, 17 ≤ i → r.getLsbD i = false) : reservedBitsZero r = true := by
  have hhigh : r.extractLsb' 17 15 = 0 := by
    refine BitVec.eq_of_getLsbD_eq fun i hi => ?_
    rw [BitVec.getLsbD_extractLsb', h17 _ (Nat.le_add_right 17 i)]
    simp
  rw [reservedBitsZero, h7, hhigh]
  rfl

theorem reservedBitsZero_genResult (check dhi dlo : Nat) : reservedBitsZero (genResult check dhi dlo) = true :=
  reservedBitsZero_of_getLsbD (genResult_getLsbD_eq_false _ _ _ (.inl rfl))
    fun _ hi => genResult_getLsbD_eq_false _ _ _ (.inr (by omega))

theorem reservedBitsZero_chkResult (b : Bool) : reservedBitsZero (chkResult b) = true := by
  cases b <;> decide

@[simp] theorem resultMatch_zero : resultMatch 0#32 = false := by decide

@[simp] theorem resultMatch_genResult (check dhi dlo : Nat) : resultMatch (genResult check dhi dlo) = false :=
  genResult_getLsbD_eq_false check dhi dlo (.inr le_rfl)

@[simp] theorem resultMatch_chkResult (b : Bool) : resultMatch (chkResult b) = b := by cases b <;> decide

/-- CHECK, DHI and DLO of a GEN response read back the check value and its two digits. -/
theorem genResult_fields {hi lo : Nat} (hhi : hi ≤ 9) (hlo : lo ≤ 9) :
    (resultCheck (genResult (10 * hi + lo) hi lo)).toNat = 10 * hi + lo ∧
    (resultDhi (genResult (10 * hi + lo) hi lo)).toNat = hi ∧
    (resultDlo (genResult (10 * hi + lo) hi lo)).toNat = lo := by
  have htop : (10 * hi + lo + 256 * hi + 4096 * lo) / 4096 = lo := by omega
  have hmid : (10 * hi + lo + 256 * hi + 4096 * lo) / 256 = hi + 16 * lo := by omega
  rw [genResult_eq hi lo hhi hlo]
  simp only [resultCheck, resultDhi, resultDlo, BitVec.extractLsb'_toNat, BitVec.toNat_ofNat,
    Nat.shiftRight_eq_div_pow, Nat.reducePow]
  rw [Nat.mod_eq_of_lt (by omega : 10 * hi + lo + 256 * hi + 4096 * lo < 4294967296), hmid, htop]
  omega

/-! ### Legal ROMs read digits, so the check values have two digits -/

theorem mem_tableIndexes {rows k d : Nat} (hk : k < rows) (hd : d ≤ 9) : 16 * k + d ∈ tableIndexes rows := by
  simp only [tableIndexes, List.mem_flatten, List.mem_map, List.mem_range]
  exact ⟨_, ⟨k, hk, rfl⟩, List.mem_map.mpr ⟨d, List.mem_range.mpr (by omega), rfl⟩⟩

/-- A ROM in canonical form whose entries are digits reads a digit at every index it lists. -/
theorem romRead_le_of_listed {m : Memory} {id : RomId} {rows n : Nat} {index : BitVec n}
    (hwf : (m.rom id).map Prod.fst = tableIndexes rows) (hdigits : romDigits (m.rom id) = true)
    (hindex : index.toNat ∈ tableIndexes rows) : (romRead m id index).toNat ≤ 9 := by
  rw [← hwf, List.mem_map] at hindex
  obtain ⟨cell, hcell, hfst⟩ := hindex
  have hsome : ((m.rom id).lookup index.toNat).isSome := List.lookup_isSome_iff.mpr ⟨cell, hcell, by simp [hfst]⟩
  obtain ⟨v, hv⟩ := Option.isSome_iff_exists.mp hsome
  rw [romRead_listed hv]
  obtain ⟨before, after, hlist, -⟩ := List.lookup_eq_some_iff.mp hv
  have hmem : (index.toNat, v) ∈ m.rom id := by simp [hlist]
  simpa using List.all_eq_true.mp hdigits _ hmem

theorem readsDigits_of_legal {m : Memory} (h : m.legal = true) : readsDigits m := by
  simp only [Memory.legal, Memory.wf, Bool.and_eq_true, decide_eq_true_eq] at h
  obtain ⟨⟨⟨⟨⟨⟨⟨⟨-, hd⟩, hp⟩, hinv⟩, -⟩, hdDigits⟩, hpDigits⟩, hinvDigits⟩, -⟩ := h
  refine ⟨fun r c hr hc => ?_, fun k d hk hd => ?_, fun c hc => ?_⟩
  · refine romRead_le_of_listed (id := .d) hd hdDigits ?_
    rw [dIndex_toNat]
    exact mem_tableIndexes (by omega) hc
  · refine romRead_le_of_listed (id := .p) hp hpDigits ?_
    rw [pIndex_toNat, Nat.mod_eq_of_lt (by omega : k < 8), Nat.mod_eq_of_lt (by omega : d < 16)]
    exact mem_tableIndexes (by omega) hd
  · refine romRead_le_of_listed (id := .inv) hinv hinvDigits ?_
    simpa using mem_tableIndexes (k := 0) one_pos hc

theorem digitAt_le {s : List Nat} (hs : isDigits s) (i : Nat) : digitAt s i ≤ 9 := by
  rw [digitAt, List.getD_eq_getElem?_getD]
  cases h : s[s.length - 1 - i]?
  · exact Nat.zero_le 9
  · exact hs _ (List.mem_of_getElem? h)

theorem vStep_le {m : Memory} (hm : readsDigits m) {s : List Nat} (hs : isDigits s) {c : Nibble} (hc : c.toNat ≤ 9)
    (i : Nat) : (vStep m s c i).toNat ≤ 9 := by
  obtain ⟨hd, hp, -⟩ := hm
  exact hd _ _ hc (hp _ _ (by omega) (digitAt_le hs i))

/-- The fold starts from the digit 0, and every step of it gives a digit. -/
theorem vFold_le {m : Memory} (hm : readsDigits m) {s : List Nat} (hs : isDigits s) : (vFold m s).toNat ≤ 9 :=
  List.foldlRecOn (motive := fun c : Nibble => c.toNat ≤ 9) _ _ (by decide) fun _ hc i _ => vStep_le hm hs hc i

theorem invRead_vFold_le {m : Memory} (hm : readsDigits m) {s : List Nat} (hs : isDigits s) :
    (invRead m (vFold m s)).toNat ≤ 9 := by
  have hfold := vFold_le hm hs
  obtain ⟨-, -, hinv⟩ := hm
  exact hinv _ hfold

/-- Both passes read Inv of a fold over digits, the second over the first check digit too. -/
theorem verhDigits_le {m : Memory} (hm : readsDigits m) (x : Nat) :
    (verhDigits m x).1.toNat ≤ 9 ∧ (verhDigits m x).2.toNat ≤ 9 := by
  have hfirst : (verhDigits m x).1.toNat ≤ 9 := invRead_vFold_le hm (isDigits_dec x)
  refine ⟨hfirst, invRead_vFold_le hm ?_⟩
  exact List.forall_mem_append.mpr ⟨isDigits_dec x, List.forall_mem_singleton.mpr hfirst⟩

theorem engineDigits_le {m : Memory} (hm : readsDigits m) (eng : Bool) (x : Nat) :
    (engineDigits m eng x).1 ≤ 9 ∧ (engineDigits m eng x).2 ≤ 9 := by
  cases eng
  · have hlt : luhnCheck m x < 100 := Nat.mod_lt _ (by decide)
    simp only [engineDigits, Bool.false_eq_true, if_false]
    omega
  · exact verhDigits_le hm x

/-! ### RESULT of a response -/

theorem reservedBitsZero_execRequest (m : Memory) (w : Nat) (req : Request) :
    reservedBitsZero (execRequest m w req).result = true := by
  rcases execRequest_cases m w req with
    ⟨-, h⟩ | ⟨-, -, h⟩ | ⟨-, -, -, -, h⟩ | ⟨-, -, -, h⟩ | ⟨-, -, -, h⟩ <;> rw [h]
  · decide
  · decide
  · decide
  · exact reservedBitsZero_genResult _ _ _
  · exact reservedBitsZero_chkResult _

/-- An error is reported with RESULT 0 (spec/60_exceptions.md R130). -/
theorem execRequest_result_eq_zero {m : Memory} {w : Nat} {req : Request} (hs : (execRequest m w req).status ≠ .ok) :
    (execRequest m w req).result = 0 := by
  rcases execRequest_cases m w req with
    ⟨-, h⟩ | ⟨-, -, h⟩ | ⟨-, -, -, -, h⟩ | ⟨-, -, -, h⟩ | ⟨-, -, -, h⟩ <;> rw [h] at hs ⊢
  · rfl
  · rfl
  · rfl
  · exact absurd rfl hs
  · exact absurd rfl hs

/-- The OK response to a GEN. -/
theorem execRequest_gen_ok {m : Memory} {w : Nat} {req : Request} (hs : (execRequest m w req).status = .ok)
    (hfn : cmdFn req.cmd = false) :
    (execRequest m w req).result = genResult (engineCheck m (cmdEng req.cmd) (operandValue w req).toNat)
      (engineDigits m (cmdEng req.cmd) (operandValue w req).toNat).1
      (engineDigits m (cmdEng req.cmd) (operandValue w req).toNat).2 := by
  rcases execRequest_cases m w req with
    ⟨-, h⟩ | ⟨-, -, h⟩ | ⟨-, -, -, -, h⟩ | ⟨-, -, -, h⟩ | ⟨-, hfn', -, -⟩
  case inr.inr.inr.inl => rw [h, respondOk_result]
  case inr.inr.inr.inr => exact absurd hfn (by simp [hfn'])
  all_goals rw [h] at hs; cases hs

/-- RESULT of a CHK response is 0 or MATCH alone. -/
theorem execRequest_chk_result {m : Memory} {w : Nat} {req : Request} (hfn : cmdFn req.cmd = true) :
    (execRequest m w req).result = 0 ∨ (execRequest m w req).result = 65536 := by
  rcases execRequest_cases m w req with
    ⟨-, h⟩ | ⟨-, -, h⟩ | ⟨-, -, -, -, h⟩ | ⟨-, hfn', -, -⟩ | ⟨-, -, -, h⟩
  · exact .inl (by rw [h, raise_result])
  · exact .inl (by rw [h, raise_result])
  · exact .inl (by rw [h, raise_result])
  · exact absurd hfn (by simp [hfn'])
  · rw [h, respondOk_result, chkResult_eq]
    split <;> simp

/-- MATCH is set exactly in the response to a legal CHK, long enough, whose check value its engine gives again. -/
theorem resultMatch_execRequest_iff (m : Memory) (w : Nat) (req : Request) :
    resultMatch (execRequest m w req).result = true ↔
      (cmdRsvd req.cmd = 0 ∧ cmdFn req.cmd = true) ∧ 100 ≤ operandValue w req ∧
      engineCheck m (cmdEng req.cmd) ((operandValue w req).toNat / 100) = (operandValue w req).toNat % 100 := by
  rcases execRequest_cases m w req with
    ⟨hrsvd, h⟩ | ⟨-, hneg, h⟩ | ⟨-, -, -, hshort, h⟩ | ⟨-, hfn, -, h⟩ | ⟨hrsvd, hfn, hlong, h⟩ <;> rw [h]
  · exact iff_of_false (by simp) fun ⟨⟨hlegal, _⟩, _⟩ => hrsvd hlegal
  · simp [not_le.mpr (hneg.trans (by decide : (0 : Int) < 100))]
  · simp [not_le.mpr hshort]
  · simp [hfn]
  · simp [hrsvd, hfn, hlong]

end Sys2Proof.Machine

open Sys2Proof Sys2Proof.Machine Sys2Proof.Safety

/-- Settles O28: a step is an update of the state that keeps the invariant. -/
theorem everyStepKeepsTheInvariant : Obligations.EveryStepKeepsTheInvariant := fun _ _ h ht => h.step ht

/-- Settles O29: the default build is legal, its ROMs are legal, and the queues are empty. -/
theorem resetMeetsTheInvariant : Obligations.ResetMeetsTheInvariant := inv_reset

/-- Settles O19, by the five kinds of answer; in legal ROMs both engines' check values have two digits. -/
theorem resultHasTheLayoutOfTheSpec : Obligations.ResultHasTheLayoutOfTheSpec := by
  intro m w req rsp x v
  refine ⟨reservedBitsZero_execRequest m w req, execRequest_result_eq_zero, fun _ => execRequest_chk_result, ?_, ?_⟩
  · intro hfn
    rw [← Bool.not_eq_true, resultMatch_execRequest_iff]
    simp [hfn]
  · intro hlegal hok hfn
    obtain ⟨hhi, hlo⟩ := engineDigits_le (readsDigits_of_legal hlegal) (cmdEng req.cmd) x
    have hv : v = 10 * (engineDigits m (cmdEng req.cmd) x).1 + (engineDigits m (cmdEng req.cmd) x).2 :=
      engineCheck_eq m (cmdEng req.cmd) x
    obtain ⟨hcheck, hdhi, hdlo⟩ := genResult_fields hhi hlo
    have hresult : rsp.result =
        genResult v (engineDigits m (cmdEng req.cmd) x).1 (engineDigits m (cmdEng req.cmd) x).2 :=
      execRequest_gen_ok hok hfn
    rw [hresult, hv, hcheck, hdhi, hdlo]
    omega

/-- Settles O20: MATCH is the comparison of a legal CHK, and ENG tells the two CHK bytes apart. -/
theorem matchOnlyWhenCheckValuesAgree : Obligations.MatchOnlyWhenCheckValuesAgree := by
  intro m w req x
  have hluhn : req.cmd = 0x02 ↔ cmdRsvd req.cmd = 0 ∧ cmdFn req.cmd = true ∧ cmdEng req.cmd = false := by
    rw [← cmd_eq_cmdOfFields_iff]
    rfl
  have hverh : req.cmd = 0x03 ↔ cmdRsvd req.cmd = 0 ∧ cmdFn req.cmd = true ∧ cmdEng req.cmd = true := by
    rw [← cmd_eq_cmdOfFields_iff]
    rfl
  rw [resultMatch_execRequest_iff, hluhn, hverh]
  cases cmdEng req.cmd <;> simp [engineCheck, x, and_assoc]

/-- Settles O31: both take Exec of the head, which only the ROMs and W enter besides. -/
theorem responseDependsOnItsRequestAlone : Obligations.ResponseDependsOnItsRequestAlone := by
  intro s s' t t' req rest rest' ms ms' hmem hw hq hq' hs hs' ht ht'
  rw [step_of_deliver hs hq] at ht
  rw [step_of_deliver hs' hq', ← hmem, ← hw] at ht'
  cases ht
  cases ht'
  exact ⟨execRequest s.mem s.build.w req, rfl, rfl⟩

/-- Settles O53: the packed STATUS is the code of the STATUS Exec gives. -/
theorem statusNumbersAreThoseOfTheSpec : Obligations.StatusNumbersAreThoseOfTheSpec := by
  refine ⟨⟨rfl, rfl, rfl, rfl, rfl⟩, fun m w req => ?_⟩
  rw [packResponse_status, execRequest_status]
  simp only [apply_ite Status.code]
  rfl
end

section
/-! The ROMs and the order of responses of spec/20_memory.md (R41 to R47, R50, R52). A step is said once more, by what it
leaves alone and by the answers it conserves; Exec is compared in two ROM contents that agree where operations read. -/

/-! ### What a step leaves alone, and the answers it conserves -/

namespace Sys2Proof.Machine
open Sys2Proof Sys2Proof.Safety

/-- The two outcomes of a deliver: nothing in flight, or the head of IFQ answered by Exec of it. -/
theorem deliver_next_cases {s t : State} (h : deliver s = .next t) :
    (s.ifq = [] ∧ t = s) ∨
    (∃ req rest, s.ifq = req :: rest ∧ t = s.respond (execRequest s.mem s.build.w req)) := by
  rcases hq : s.ifq with _ | ⟨req, rest⟩
  · rw [deliver, hq] at h
    cases h
    exact .inl ⟨rfl, rfl⟩
  · rw [deliver_of_ifq_cons hq] at h
    cases h
    exact .inr ⟨req, rest, rfl, rfl⟩

/-- No move writes a ROM or the build, and each takes itself off the schedule (spec/20_memory.md R47). -/
theorem step_frame {s t : State} (h : step s = .next t) :
    t.mem = s.mem ∧ t.build = s.build ∧ t.schedule = s.schedule.tail := by
  rcases step_cases s with ⟨hs, hstep⟩ | ⟨rest, hs, hstep⟩ | ⟨rest, hs, hstep⟩ | ⟨rest, hs, hstep⟩ <;>
    rw [hstep] at h <;> rw [hs, List.tail]
  · cases h
    exact ⟨rfl, rfl, hs⟩
  · cases h
    simp
  · rcases deliver_next_cases h with ⟨-, rfl⟩ | ⟨_, _, -, rfl⟩ <;> exact ⟨rfl, rfl, rfl⟩
  · cases h
    exact ⟨rfl, rfl, rfl⟩

end Sys2Proof.Machine

namespace Sys2Proof.Safety
open Sys2Proof Sys2Proof.Machine

@[simp] theorem answers_afterMove (s : State) (rest : List Move) : answers (s.afterMove rest) = answers s := rfl

/-- An accept moves a request from the end of one queue to the end of the queue before it. -/
@[simp] theorem answers_accept (s : State) : answers s.accept = answers s := by
  rcases s.accept_cases with ⟨-, hs⟩ | ⟨req, rest, hp, -, hs⟩ | ⟨_, _, -, -, hs⟩ <;> rw [hs]
  simp [answers, hp]

/-- Taking Exec of the head moves it from the answers still to come to those taken. -/
theorem answers_respond_head {s : State} {req : Request} {rest : List Request} (h : s.ifq = req :: rest) :
    answers (s.respond (execRequest s.mem s.build.w req)) = answers s := by
  simp [answers, h]

theorem answers_deliver {s t : State} (h : deliver s = .next t) : answers t = answers s := by
  rcases deliver_next_cases h with ⟨-, rfl⟩ | ⟨req, rest, hq, rfl⟩
  · rfl
  · exact answers_respond_head hq

theorem taken_prefix_deliver {s t : State} (h : deliver s = .next t) : s.taken <+: t.taken := by
  rcases deliver_next_cases h with ⟨-, rfl⟩ | ⟨_, _, -, rfl⟩
  · exact List.prefix_rfl
  · exact List.prefix_append _ _

/-- A reset is the one move that takes answers away: it empties IFQ (spec/70_reset_and_hazards.md R150). -/
theorem answers_step {s t : State} (hreset : s.schedule.head? ≠ some .reset) (h : step s = .next t) :
    answers t = answers s := by
  rcases step_cases s with ⟨-, hstep⟩ | ⟨rest, -, hstep⟩ | ⟨rest, -, hstep⟩ | ⟨rest, hs, -⟩
  · rw [hstep] at h
    cases h
    rfl
  · rw [hstep] at h
    cases h
    rw [answers_accept, answers_afterMove]
  · rw [hstep] at h
    rw [answers_deliver h, answers_afterMove]
  · exact absurd (by rw [hs, List.head?]) hreset

/-- The responses taken are the host's: no move, not even a reset, takes one back. -/
theorem taken_prefix_step {s t : State} (h : step s = .next t) : s.taken <+: t.taken := by
  rcases step_cases s with ⟨-, hstep⟩ | ⟨rest, -, hstep⟩ | ⟨rest, -, hstep⟩ | ⟨rest, -, hstep⟩ <;>
    rw [hstep] at h
  · cases h
    exact List.prefix_rfl
  · cases h
    simp
  · simpa using taken_prefix_deliver h
  · cases h
    simp

/-! ### Runs -/

@[simp] theorem run_zero (s : State) : run 0 s = .next s := rfl

theorem run_succ_of_step {s u : State} (h : step s = .next u) (k : Nat) : run (k + 1) s = run k u := by
  simp only [run, Host.Core.run, core, h]

theorem exists_step_of_run_succ {k : Nat} {s t : State} (h : run (k + 1) s = .next t) :
    ∃ u, step s = .next u ∧ run k u = .next t := by
  cases hstep : step s with
  | next u => exact ⟨u, rfl, run_succ_of_step hstep k ▸ h⟩
  | fault r => cases r
  | refused r => simp [run, Host.Core.run, core, hstep] at h

/-- A move absent from the next `k + 1` is not the next one, nor among the `k` after it. -/
theorem head?_ne_and_not_mem_tail_take {mv : Move} {ms : List Move} {k : Nat} (h : mv ∉ ms.take (k + 1)) :
    ms.head? ≠ some mv ∧ mv ∉ ms.tail.take k := by
  cases ms with
  | nil => simp
  | cons next rest => simpa [eq_comm] using h

/-- The step lemmas along a run: the schedule gives up one move a step, so none of the first `k` is a reset. -/
theorem answers_run {k : Nat} {s t : State} (hreset : Move.reset ∉ s.schedule.take k) (h : run k s = .next t) :
    answers t = answers s ∧ s.taken <+: t.taken := by
  induction k generalizing s with
  | zero =>
    cases h
    exact ⟨rfl, List.prefix_rfl⟩
  | succ k ih =>
    obtain ⟨u, hstep, hrun⟩ := exists_step_of_run_succ h
    obtain ⟨-, -, hsched⟩ := step_frame hstep
    obtain ⟨hhead, htail⟩ := head?_ne_and_not_mem_tail_take hreset
    obtain ⟨hanswers, htaken⟩ := ih (hsched ▸ htail) hrun
    exact ⟨hanswers.trans (answers_step hhead hstep), (taken_prefix_step hstep).trans htaken⟩

theorem answers_of_finished {s : State} (h : finished s) : answers s = s.taken := by
  obtain ⟨hpending, hifq⟩ := h
  simp [answers, hpending, hifq]

end Sys2Proof.Safety

/-! ### Exec in two ROM contents that agree where operations read -/

namespace Sys2Proof.Machine
open Sys2Proof Sys2Proof.Safety

section
variable {m m' : Memory}

theorem luhnCheck_congr (h : sameEntries m m') (x : Nat) : luhnCheck m x = luhnCheck m' x := by
  obtain ⟨hlt, -⟩ := h
  have hsum : luhnSum m x = luhnSum m' x := by
    refine List.foldl_ext _ _ _ fun acc i _ => ?_
    rw [luhnTerm, luhnTerm, hlt _ _ (by omega) (digit_le x i)]
  rw [luhnCheck, luhnCheck, hsum]

theorem vStep_congr (h : sameEntries m m') (hm : readsDigits m) {s : List Nat} (hs : isDigits s) {c : Nibble}
    (hc : c.toNat ≤ 9) (i : Nat) : vStep m s c i = vStep m' s c i := by
  obtain ⟨-, hd, hp, -⟩ := h
  obtain ⟨-, hpDigit, -⟩ := hm
  have hrow : (i + 1) % 8 ≤ 7 := by omega
  have hdigit := digitAt_le hs i
  rw [vStep, vStep, ← hp _ _ hrow hdigit, hd _ _ hc (hpDigit _ _ hrow hdigit)]

/-- The fold stays a digit, so it reads D and P only at indexes where the two contents agree. -/
theorem vFold_congr (h : sameEntries m m') (hm : readsDigits m) {s : List Nat} (hs : isDigits s) :
    vFold m s = vFold m' s := by
  have hfold : ∀ (is : List Nat) (c : Nibble), c.toNat ≤ 9 → is.foldl (vStep m s) c = is.foldl (vStep m' s) c := by
    intro is
    induction is with
    | nil => exact fun _ _ => rfl
    | cons i is ih =>
      intro c hc
      rw [List.foldl_cons, List.foldl_cons, ← vStep_congr h hm hs hc i]
      exact ih _ (vStep_le hm hs hc i)
  exact hfold _ _ (by decide)

theorem invRead_vFold_congr (h : sameEntries m m') (hm : readsDigits m) {s : List Nat} (hs : isDigits s) :
    invRead m (vFold m s) = invRead m' (vFold m' s) := by
  rw [← vFold_congr h hm hs]
  obtain ⟨-, -, -, hinv⟩ := h
  exact hinv _ (vFold_le hm hs)

theorem verhDigits_congr (h : sameEntries m m') (hm : readsDigits m) (x : Nat) : verhDigits m x = verhDigits m' x := by
  have hfirst : verhFirst m (dec x) = verhFirst m' (dec x) := invRead_vFold_congr h hm (isDigits_dec x)
  have hdigit : (verhFirst m (dec x)).toNat ≤ 9 := invRead_vFold_le hm (isDigits_dec x)
  refine Prod.ext hfirst ?_
  rw [verhDigits, verhDigits, ← hfirst]
  exact invRead_vFold_congr h hm
    (List.forall_mem_append.mpr ⟨isDigits_dec x, List.forall_mem_singleton.mpr hdigit⟩)

theorem engineDigits_congr (h : sameEntries m m') (hm : readsDigits m) (eng : Bool) (x : Nat) :
    engineDigits m eng x = engineDigits m' eng x := by
  cases eng
  · simp [engineDigits, luhnCheck_congr h]
  · simp [engineDigits, verhDigits_congr h hm]

theorem engineCheck_congr (h : sameEntries m m') (hm : readsDigits m) (eng : Bool) (x : Nat) :
    engineCheck m eng x = engineCheck m' eng x := by
  rw [engineCheck_eq, engineCheck_eq, engineDigits_congr h hm]

/-- A command's response reads the ROMs through its engine's check value alone. -/
theorem responseOf_congr (h : sameEntries m m') (hm : readsDigits m) (fn eng : Bool) (x : Int) :
    responseOf m (commandOf fn eng x) = responseOf m' (commandOf fn eng x) := by
  cases fn
  · rw [responseOf_gen, responseOf_gen, engineCheck_congr h hm, engineDigits_congr h hm]
  · rw [responseOf_chk, responseOf_chk, engineCheck_congr h hm]

end

end Sys2Proof.Machine

open Sys2Proof Sys2Proof.Machine Sys2Proof.Safety

/-- Settles O30: a step without reset conserves the answers, and at the end of a run all of them are taken. -/
theorem responsesComeInAcceptanceOrder : Obligations.ResponsesComeInAcceptanceOrder := by
  intro k s t hreset hrun
  obtain ⟨hanswers, htaken⟩ := answers_run hreset hrun
  exact ⟨hanswers, htaken, fun hfin => (answers_of_finished hfin).symm.trans hanswers⟩

/-- Settles O27: part of the frame of a step. -/
theorem noStepWritesARom : Obligations.NoStepWritesARom := by
  intro s t h
  obtain ⟨hmem, hbuild, -⟩ := step_frame h
  exact ⟨hmem, hbuild⟩

/-- Settles O34: a legal ROM lists a digit at every index of digits. -/
theorem legalRomsReadDigits : Obligations.LegalRomsReadDigits := fun _ => readsDigits_of_legal

/-- Settles O35: the fold starts from 0 and every step of it reads D. -/
theorem foldStaysADigit : Obligations.FoldStaysADigit := fun _ _ hm hs => vFold_le hm hs

/-- Settles O36: an illegal CMD reads no ROM, and a command reads them only where the two contents agree. -/
theorem unformedIndexesChangeNoResponse : Obligations.UnformedIndexesChangeNoResponse := by
  intro m m' w req hm h
  by_cases hrsvd : cmdRsvd req.cmd = 0
  · rw [execRequest_of_legal m w hrsvd, execRequest_of_legal m' w hrsvd, responseOf_congr h hm]
  · rw [execRequest_of_illegal m w hrsvd, execRequest_of_illegal m' w hrsvd]

/-- Settles O18: exec gives the response of its command, and giving a response changes IFQ and the responses taken. -/
theorem commandsChangeOnlyQueueAndResponses : Obligations.CommandsChangeOnlyQueueAndResponses := fun i s =>
  ⟨s.respond (responseOf s.mem i), responseOf s.mem i, exec_eq_respond i s, rfl, rfl, rfl, rfl, rfl, rfl,
    fun _ _ _ => rfl⟩

/-- Settles O33: each default table is finite, and is compared with its closed form entry by entry. -/
theorem defaultRomsMeetTheirClosedForms : Obligations.DefaultRomsMeetTheirClosedForms := by
  have hlt : ∀ p < 2, ∀ d < 10, (ltRead defaultMemory p d).toNat = termByRule p d := by decide +kernel
  have hd : ∀ r < 10, ∀ c < 10,
      (dRead defaultMemory (BitVec.ofNat 4 r) (BitVec.ofNat 4 c)).toNat = dihedral r c := by decide +kernel
  have hp : ∀ k < 8, ∀ d < 10, (pRead defaultMemory k d).toNat = sigmaPow k d := by decide +kernel
  have hinv : ∀ c < 10,
      dRead defaultMemory (BitVec.ofNat 4 c) (invRead defaultMemory (BitVec.ofNat 4 c)) = 0 ∧
      dRead defaultMemory (invRead defaultMemory (BitVec.ofNat 4 c)) (BitVec.ofNat 4 c) = 0 := by decide +kernel
  exact ⟨fun p d h h' => hlt p h d h', fun r c h h' => hd r h c h', fun k d h h' => hp k h d h', hinv⟩
end

section
/-! The encoding of spec/30_encoding.md (R60 to R63, R66, R68). `sint` is the library's `BitVec.toInt`, so the operand of
a command and the OPERAND pattern that stands for it are inverse by library lemmas; CMD is given by its fields, and
the fields give the command. -/

/-! ### The operand: a W-bit pattern and its signed reading -/

namespace Sys2Proof
open Sys2Proof.Machine Sys2Proof.Safety

theorem sint_eq_toInt {w : Nat} (f : BitVec w) : sint f = f.toInt := by
  rw [sint, BitVec.toInt_eq_msb_cond]
  split <;> simp

theorem operandFits_iff {w : Nat} {x : Int} :
    operandFits w x = true ↔ -(2 ^ (w - 1) : Int) ≤ x ∧ x ≤ 2 ^ (w - 1) - 1 := by
  rw [operandFits, Bool.and_eq_true, decide_eq_true_eq, decide_eq_true_eq]

/-- Two's complement gives back an integer of the field's range (spec/30_encoding.md R62). -/
theorem sint_ofInt {w : Nat} {x : Int} (hw : 0 < w) (hx : operandFits w x = true) : sint (BitVec.ofInt w x) = x := by
  obtain ⟨hlow, hhigh⟩ := operandFits_iff.mp hx
  rw [sint_eq_toInt, BitVec.toInt_ofInt_eq_self hw hlow (Int.lt_of_le_sub_one hhigh)]

theorem ofInt_sint {w : Nat} (f : BitVec w) : BitVec.ofInt w (sint f) = f := by
  rw [sint_eq_toInt, BitVec.ofInt_toInt]

theorem operandFits_sint {w : Nat} (f : BitVec w) : operandFits w (sint f) = true := by
  rw [sint_eq_toInt, operandFits_iff]
  exact ⟨f.le_toInt, Int.le_sub_one_of_lt f.toInt_lt⟩

theorem operandBits_toNat_of_fits {w : Nat} {req : Request} (h : fits w req) :
    (req.operandBits w).toNat = req.operand := by
  rw [Request.operandBits, BitVec.toNat_ofNat, Nat.mod_eq_of_lt h]

/-! ### The encoder, and the command of its fields -/

theorem operandBits_encode (w : Nat) (i : Instr) : (encode w i).operandBits w = BitVec.ofInt w i.operand := by
  rw [Request.operandBits, encode, BitVec.ofNat_toNat, BitVec.setWidth_eq]

theorem commandOf_fields (i : Instr) : commandOf (instrFn i) (instrEng i) i.operand = i := by
  cases i <;> rfl

@[simp] theorem operand_commandOf (fn eng : Bool) (x : Int) : (commandOf fn eng x).operand = x := by
  cases fn <;> cases eng <;> rfl

theorem encode_commandOf (w : Nat) (fn eng : Bool) (x : Int) :
    encode w (commandOf fn eng x) = { cmd := cmdOfFields 0 fn eng, operand := (BitVec.ofInt w x).toNat } := by
  cases fn <;> cases eng <;> rfl

/-- The CMD byte of the four commands as a number (spec/30_encoding.md R63). -/
theorem cmdOfFields_eq_ofNat (fn eng : Bool) : cmdOfFields 0 fn eng = BitVec.ofNat 8 (2 * fn.toNat + eng.toNat) := by
  cases fn <;> cases eng <;> rfl

/-- A request decodes exactly when its CMD is the byte of some FN and ENG, and then to their command with the signed
OPERAND (spec/30_encoding.md R63, R64). -/
theorem decode_eq_ok_iff {w : Nat} {req : Request} {i : Instr} :
    decode w req = .ok i ↔ ∃ fn eng, req.cmd = cmdOfFields 0 fn eng ∧ i = commandOf fn eng (operandValue w req) := by
  rcases decode_cases w req with ⟨hillegal, hdecode⟩ | ⟨hrsvd, hdecode⟩ <;> rw [hdecode]
  · refine iff_of_false (by simp) ?_
    rintro ⟨fn, eng, hcmd, -⟩
    obtain ⟨hrsvd, -, -⟩ := cmd_eq_cmdOfFields_iff.mp hcmd
    exact hillegal hrsvd
  · constructor
    · rintro ⟨⟩
      exact ⟨_, _, cmd_eq_cmdOfFields_iff.mpr ⟨hrsvd, rfl, rfl⟩, rfl⟩
    · rintro ⟨fn, eng, hcmd, rfl⟩
      obtain ⟨-, rfl, rfl⟩ := cmd_eq_cmdOfFields_iff.mp hcmd
      rfl

/-! ### The packed strings -/

theorem packRequest_cmd (w : Nat) (req : Request) : (packRequest w req).extractLsb' 0 8 = req.cmd :=
  BitVec.extractLsb'_append_eq_right

theorem packRequest_operand (w : Nat) (req : Request) : (packRequest w req).extractLsb' 8 w = req.operandBits w :=
  BitVec.extractLsb'_append_eq_left

theorem unpackRequest_packRequest {w : Nat} {req : Request} (h : fits w req) :
    unpackRequest w (packRequest w req) = req := by
  rw [unpackRequest, packRequest_cmd, packRequest_operand, operandBits_toNat_of_fits h]

theorem packResponse_result (rsp : Response) : (packResponse rsp).extractLsb' 0 32 = rsp.result :=
  BitVec.extractLsb'_append_eq_right

end Sys2Proof

/-! ### The assembler -/

namespace Sys2Proof.Machine
open Sys2Proof Sys2Proof.Safety

/-- The assembler's pattern of an integer is the rule's, and its refusal where the rule has none. -/
theorem assembleInt_eq (w : Nat) (v : AsmInt) :
    assembleInt w v = (patternByRule w v).elim (.error .outOfRange) .ok := by
  cases v with
  | decimal n =>
    rw [assembleInt, patternByRule, BitVec.toNat_ofInt]
    simp only [operandFits_iff]
    split <;> simp
  | hex h =>
    have hpow : 0 < 2 ^ w := Nat.two_pow_pos w
    rw [assembleInt, patternByRule, apply_ite (Option.elim · _ _)]
    simp only [Nat.le_sub_one_iff_lt hpow, Option.elim]

/-- No pattern is wider than the field: nothing is left to truncate. -/
theorem assembleInt_lt {w : Nat} {v : AsmInt} {operand : Nat} (h : assembleInt w v = .ok operand) :
    operand < 2 ^ w := by
  cases v with
  | decimal n =>
    rw [assembleInt] at h
    split at h <;> cases h
    exact BitVec.isLt _
  | hex p =>
    rw [assembleInt] at h
    split at h <;> cases h
    assumption

theorem assemble_command (w : Nat) (fn eng : Bool) (v : AsmInt) :
    assemble w (.command fn eng v) =
      (assembleInt w v).map fun operand => { cmd := cmdOfFields 0 fn eng, operand := operand } := by
  rw [assemble]
  cases assembleInt w v <;> rfl

theorem assemble_raw (w byte : Nat) (v : AsmInt) :
    assemble w (.raw byte v) =
      if byte < 256 then (assembleInt w v).map fun operand => { cmd := BitVec.ofNat 8 byte, operand := operand }
      else .error .outOfRange := by
  rw [assemble]
  cases assembleInt w v <;> rfl

/-- The OPERAND of what assembles is the whole pattern of the line's integer. -/
theorem exists_assembleInt_of_assemble {w : Nat} {r : AsmRequest} {req : Request} (h : assemble w r = .ok req) :
    ∃ v, assembleInt w v = .ok req.operand := by
  cases r with
  | command fn eng v =>
    rw [assemble_command] at h
    cases hv : assembleInt w v <;> rw [hv] at h <;> cases h
    exact ⟨v, hv⟩
  | raw byte v =>
    rw [assemble_raw] at h
    split at h
    · cases hv : assembleInt w v <;> rw [hv] at h <;> cases h
      exact ⟨v, hv⟩
    · cases h

theorem fits_of_assemble {w : Nat} {r : AsmRequest} {req : Request} (h : assemble w r = .ok req) : fits w req := by
  obtain ⟨v, hv⟩ := exists_assembleInt_of_assemble h
  exact assembleInt_lt hv

/-- A mnemonic with a decimal integer assembles to the encoding of its command. -/
theorem assemble_command_decimal (w : Nat) (fn eng : Bool) (n : Int) :
    assemble w (.command fn eng (.decimal n)) =
      if operandFits w n then .ok (encode w (commandOf fn eng n)) else .error .outOfRange := by
  rw [assemble_command, assembleInt, encode_commandOf]
  split <;> rfl

end Sys2Proof.Machine

open Sys2Proof Sys2Proof.Machine Sys2Proof.Safety

/-- Settles O1: the CMD fields of the encoding are the command's, and two's complement gives back its operand. -/
theorem decodeOfEncodeIsTheCommand : Obligations.DecodeOfEncodeIsTheCommand := by
  intro w i hwf
  obtain ⟨hw, hfits⟩ : 8 ≤ w ∧ operandFits w i.operand = true := by simpa [Instr.wellFormed] using hwf
  have hvalue : operandValue w (encode w i) = i.operand := by
    rw [operandValue, operandBits_encode, sint_ofInt (by omega) hfits]
  refine decode_eq_ok_iff.mpr ⟨instrFn i, instrEng i, rfl, ?_⟩
  rw [hvalue, commandOf_fields]

/-- Settles O2: encoding puts back the CMD of the fields and the pattern of the signed reading. -/
theorem encodeOfDecodeIsTheRequest : Obligations.EncodeOfDecodeIsTheRequest := by
  intro w req i hw hreq hdecode
  obtain ⟨fn, eng, hcmd, rfl⟩ := decode_eq_ok_iff.mp hdecode
  constructor
  · rw [encode_commandOf, operandValue, ofInt_sint, operandBits_toNat_of_fits hreq, ← hcmd]
  · rw [Instr.wellFormed, operand_commandOf, operandValue, operandFits_sint, decide_eq_true hw, Bool.and_self]

/-- Settles O5: a packed string is its fields appended. -/
theorem packedFieldsStandWhereTheFormatSays : Obligations.PackedFieldsStandWhereTheFormatSays := by
  intro w req rsp hreq
  refine ⟨packRequest_cmd w req, ?_, unpackRequest_packRequest hreq, packResponse_result rsp, packResponse_status rsp⟩
  rw [packRequest_operand, operandBits_toNat_of_fits hreq]

/-- Settles O6: the pattern of the line's integer is the rule's, and it goes whole into the request. -/
theorem assemblerRefusesAndNeverTruncates : Obligations.AssemblerRefusesAndNeverTruncates := by
  intro w fn eng v n byte _
  refine ⟨?_, ?_, ?_, fun _ _ => fits_of_assemble⟩
  · rw [assemble_command, assembleInt_eq, cmdOfFields_eq_ofNat]
    cases patternByRule w v <;> rfl
  · rw [assemble_raw, assembleInt_eq]
    simp only [Nat.lt_succ_iff]
    cases patternByRule w v <;> rfl
  · rw [assemble_command_decimal]
    simp only [operandFits_iff]

/-- Settles O8: the step is the deliver move, which answers Exec of the head. -/
theorem deliverAnswersExecOfTheHead : Obligations.DeliverAnswersExecOfTheHead := by
  intro s req rest ms hs hq
  rw [step_of_deliver hs hq, State.respond, State.afterMove, hq, List.tail]

/-- Settles O3: the four CMD bytes are those of the four pairs FN, ENG. -/
theorem fourCommandBytesDecode : Obligations.FourCommandBytesDecode := fun _ _ =>
  ⟨decode_eq_ok_iff.mpr ⟨false, false, rfl, rfl⟩, decode_eq_ok_iff.mpr ⟨false, true, rfl, rfl⟩,
    decode_eq_ok_iff.mpr ⟨true, false, rfl, rfl⟩, decode_eq_ok_iff.mpr ⟨true, true, rfl, rfl⟩⟩
end

section
/-! The LUHN engine of spec/40_luhn.md (R81 to R87). The sum of R82 is a sum over the positions of the operand, which may run
past its last digit, since a zero digit adds nothing; both commands, both datapaths and the detection of one wrong digit
are read off that sum. -/

/-! ### Numbers by their digits -/

namespace Sys2Proof.Machine
open Sys2Proof Sys2Proof.Safety

theorem digit_eq_zero_of_length_le {x i : Nat} (h : (dec x).length ≤ i) : digit x i = 0 := by
  rcases Nat.eq_zero_or_pos x with rfl | hx
  · simp [digit]
  · rw [dec_length, if_neg hx.ne'] at h
    rw [digit, ← Nat.getD_digits x i (by norm_num), List.getD_eq_default _ _ h]

/-- The digits below position `n` determine the number mod 10^n. -/
theorem mod_pow_eq_of_digit_eq {x y n : Nat} (h : ∀ i < n, digit x i = digit y i) : x % 10 ^ n = y % 10 ^ n := by
  induction n with
  | zero => simp [Nat.mod_one]
  | succ n ih =>
    have hn : x / 10 ^ n % 10 = y / 10 ^ n % 10 := h n n.lt_succ_self
    rw [Nat.mod_pow_succ, Nat.mod_pow_succ, hn, ih fun i hi => h i (by omega)]

theorem eq_of_digit_eq {x y : Nat} (h : ∀ i, digit x i = digit y i) : x = y := by
  have hx : x < 10 ^ (x + y) := lt_of_le_of_lt (Nat.le_add_right x y) (Nat.lt_pow_self (by norm_num))
  have hy : y < 10 ^ (x + y) := lt_of_le_of_lt (Nat.le_add_left y x) (Nat.lt_pow_self (by norm_num))
  have hmod : x % 10 ^ (x + y) = y % 10 ^ (x + y) := mod_pow_eq_of_digit_eq fun i _ => h i
  rwa [Nat.mod_eq_of_lt hx, Nat.mod_eq_of_lt hy] at hmod

/-- The digits of a composite above its check field are those of its base (spec/40_luhn.md R84). -/
theorem digit_compositeBase (c i : Nat) : digit (compositeBase c) i = digit c (i + 2) := by
  rw [digit_succ, digit_succ, compositeBase, Nat.div_div_eq_div_mul]

/-- Two digits fill the check field (spec/40_luhn.md R84). -/
theorem compositeCheck_eq_of_digit_eq {c c' : Nat} (h : ∀ i < 2, digit c i = digit c' i) :
    compositeCheck c = compositeCheck c' := mod_pow_eq_of_digit_eq h

theorem compositeBase_eq_of_digit_eq {c c' : Nat} (h : ∀ i, 2 ≤ i → digit c i = digit c' i) :
    compositeBase c = compositeBase c' := by
  refine eq_of_digit_eq fun i => ?_
  rw [digit_compositeBase, digit_compositeBase, h _ (by omega)]

/-- A number of at least one digit followed by one more. -/
theorem dec_append_digit {b d : Nat} (hb : 1 ≤ b) (hd : d ≤ 9) : dec (d + 10 * b) = dec b ++ [d] := by
  rw [dec, dec, digitsLow_of_pos (by omega), digitsLow_of_pos hb,
    Nat.digits_add 10 (by norm_num) d b (by omega) (.inr (by omega)), List.reverse_cons]

theorem dec_length_of_lt {x : Nat} (hx : x < 10) : (dec x).length = 1 := by
  interval_cases x <;> rfl

theorem dec_length_of_le {x : Nat} (hx : 10 ≤ x) : (dec x).length = (dec (x / 10)).length + 1 := by
  have h := congrArg List.length (dec_append_digit (b := x / 10) (d := x % 10) (by omega) (by omega))
  rwa [Nat.mod_add_div, List.length_append, List.length_singleton] at h

/-! ### The composite of a base and a check value -/

theorem compositeBase_composite {b v : Nat} (hv : v ≤ 99) : compositeBase (composite b v) = b := by
  unfold compositeBase composite
  omega

theorem compositeCheck_composite {b v : Nat} (hv : v ≤ 99) : compositeCheck (composite b v) = v := by
  unfold compositeCheck composite
  omega

/-- Base 0 alone has a composite too short for a CHK (spec/40_luhn.md R86). -/
theorem composite_lt_hundred_iff {b v : Nat} (hv : v ≤ 99) : composite b v < 100 ↔ b = 0 := by
  unfold composite
  omega

theorem composite_compositeBase_compositeCheck (c : Nat) : composite (compositeBase c) (compositeCheck c) = c :=
  Nat.div_add_mod' c 100

theorem dec_composite {b v : Nat} (hb : 1 ≤ b) (hv : v ≤ 99) : dec (composite b v) = dec b ++ [v / 10, v % 10] := by
  have hsplit : composite b v = v % 10 + 10 * (v / 10 + 10 * b) := by
    unfold composite
    omega
  rw [hsplit, dec_append_digit (by omega) (by omega), dec_append_digit hb (by omega)]
  simp

/-! ### The Luhn sum as a sum over positions -/

theorem foldl_range_add_eq_sum (f : Nat → Nat) (n : Nat) :
    (List.range n).foldl (fun acc i => acc + f i) 0 = ∑ i ∈ Finset.range n, f i := by
  rw [← List.foldl_map, ← List.sum_eq_foldl]
  rfl

/-- The Luhn terms of the first `n` positions of `x`, those beyond its last digit too (spec/40_luhn.md R85 (b)). -/
def luhnSumTo (m : Memory) (n x : Nat) : Nat := ∑ i ∈ Finset.range n, luhnTerm m i (digit x i)

theorem luhnSum_eq_luhnSumTo (m : Memory) (x : Nat) : luhnSum m x = luhnSumTo m (dec x).length x :=
  foldl_range_add_eq_sum _ _

theorem luhnFixedScan_eq (m : Memory) (n x : Nat) : luhnFixedScan m n x = (100 - luhnSumTo m n x % 100) % 100 := by
  rw [luhnFixedScan, foldl_range_add_eq_sum, luhnSumTo]

theorem luhnCheck_le (m : Memory) (x : Nat) : luhnCheck m x ≤ 99 := Nat.le_of_lt_succ (Nat.mod_lt _ (by norm_num))

/-! ### ROM_LT holds the doubling rule -/

section
variable {m : Memory} (hm : m.lt = romOfRows tableLT)
include hm

/-- A read of ROM_LT reads no other ROM. -/
theorem ltRead_eq_default (p d : Nat) : ltRead m p d = ltRead defaultMemory p d := by
  simp [ltRead, romRead, Memory.rom, hm, defaultMemory]

theorem luhnTerm_eq_termByRule (i : Nat) {d : Nat} (hd : d ≤ 9) : luhnTerm m i d = termByRule i d := by
  obtain ⟨hlt, -⟩ := defaultRomsMeetTheirClosedForms
  rw [luhnTerm, ltRead_eq_default hm, hlt _ _ (by omega) (by omega)]
  simp [termByRule]

theorem luhnSumTo_eq_of_length_le {n x : Nat} (hn : (dec x).length ≤ n) : luhnSumTo m n x = luhnSum m x := by
  rw [luhnSum_eq_luhnSumTo, luhnSumTo, luhnSumTo]
  refine Finset.eventually_constant_sum (fun i hi => ?_) hn
  rw [digit_eq_zero_of_length_le hi, luhnTerm_eq_termByRule hm i (by norm_num)]
  simp [termByRule]

end

/-- Doubling, with 9 taken off what exceeds it, permutes the digits at either parity (spec/40_luhn.md R81). -/
theorem termByRule_inj {i d d' : Nat} (hd : d ≤ 9) (hd' : d' ≤ 9) (h : termByRule i d = termByRule i d') : d = d' := by
  unfold termByRule at h
  split_ifs at h <;> omega

theorem termByRule_le {i d : Nat} (hd : d ≤ 9) : termByRule i d ≤ 9 := by
  unfold termByRule
  split_ifs <;> omega

/-! ### The check value by the library's digits -/

theorem zipIdx_digitsLow (x : Nat) :
    (digitsLow x).zipIdx = (List.range (dec x).length).map fun i => (digit x i, i) := by
  refine List.ext_getElem (by simp [dec]) fun i hi _ => ?_
  have hi : i < (digitsLow x).length := by simpa using hi
  obtain ⟨_, hdigit⟩ := List.getElem?_eq_some_iff.mp (digitsLow_getElem? hi)
  simp [hdigit]

theorem sumByRule_eq (x : Nat) : sumByRule x = ∑ i ∈ Finset.range (dec x).length, termByRule i (digit x i) := by
  have hzip : sumByRule x = ((digitsLow x).zipIdx.map fun (d, i) => termByRule i d).sum := by
    rcases Nat.eq_zero_or_pos x with rfl | hx
    · simp [sumByRule, digitsLow_eq, termByRule]
    · rw [sumByRule, digitsLow_of_pos hx]
  rw [hzip, zipIdx_digitsLow, List.map_map]
  rfl

theorem luhnCheck_eq_luhnByRule {m : Memory} (hm : m.lt = romOfRows tableLT) (x : Nat) :
    luhnCheck m x = luhnByRule x := by
  have hsum : luhnSum m x = sumByRule x := by
    rw [luhnSum_eq_luhnSumTo, sumByRule_eq]
    exact Finset.sum_congr rfl fun i _ => luhnTerm_eq_termByRule hm i (digit_le x i)
  rw [luhnCheck, luhnByRule, hsum]

/-! ### The responses of the two commands -/

/-- RESULT of a GEN response from its check value alone. -/
theorem genResult_of_check {v : Nat} (hv : v ≤ 99) :
    genResult v (v / 10) (v % 10) = BitVec.ofNat 32 (v + 256 * (v / 10) + 4096 * (v % 10)) := by
  have h := genResult_eq (v / 10) (v % 10) (by omega) (by omega)
  rwa [Nat.div_add_mod] at h

theorem luhnGen_eq (m : Memory) (x : Int) :
    luhnGen m x =
      if x < 0 then { status := .invalidInput, result := 0 }
      else
        { status := .ok
          result := BitVec.ofNat 32 (luhnCheck m x.toNat + 256 * (luhnCheck m x.toNat / 10) +
            4096 * (luhnCheck m x.toNat % 10)) } := by
  rw [← genResult_of_check (luhnCheck_le m x.toNat)]
  rfl

theorem luhnChk_eq (m : Memory) (x : Int) :
    luhnChk m x =
      if x < 0 then { status := .invalidInput, result := 0 }
      else if x < 100 then { status := .tooShort, result := 0 }
      else
        { status := .ok
          result := if luhnCheck m (compositeBase x.toNat) = compositeCheck x.toNat then 65536 else 0 } := by
  simp only [luhnChk, raise, respondOk, chkResult_eq, decide_eq_true_eq]

/-- A composite of 100 or more is answered OK, with MATCH alone in RESULT. -/
theorem luhnChk_of_le {m : Memory} {c : Nat} (hc : 100 ≤ c) :
    luhnChk m c = { status := .ok,
                    result := if luhnCheck m (compositeBase c) = compositeCheck c then 65536 else 0 } := by
  rw [luhnChk_eq, if_neg (by omega), if_neg (by omega), Int.toNat_natCast]

/-- CHECK of the response to a GEN is the engine's check value. -/
theorem resultCheck_gen {m : Memory} (hm : m.legal = true) (eng : Bool) (b : Nat) :
    (resultCheck (responseOf m (commandOf false eng b)).result).toNat = engineCheck m eng b := by
  obtain ⟨hhi, hlo⟩ := engineDigits_le (readsDigits_of_legal hm) eng b
  obtain ⟨hcheck, -⟩ := genResult_fields hhi hlo
  rw [responseOf_gen, if_neg (by omega), respondOk_result, Int.toNat_natCast, engineCheck_eq, hcheck]

/-- The round trip of either engine (spec/40_luhn.md R87 (a), spec/41_verhoeff.md R107 (a)): CHK parts the composite into
the base and the check value that GEN answered. -/
theorem chk_composite_gen {m : Memory} (hm : m.legal = true) (eng : Bool) (b : Nat) :
    responseOf m (commandOf true eng
      (composite b (resultCheck (responseOf m (commandOf false eng b)).result).toNat)) =
      if b = 0 then { status := .tooShort, result := 0 } else { status := .ok, result := 65536 } := by
  obtain ⟨hhi, hlo⟩ := engineDigits_le (readsDigits_of_legal hm) eng b
  have hv : engineCheck m eng b ≤ 99 := by
    rw [engineCheck_eq]
    omega
  have hbase : composite b (engineCheck m eng b) / 100 = b := compositeBase_composite hv
  have hcheck : composite b (engineCheck m eng b) % 100 = engineCheck m eng b := compositeCheck_composite hv
  rw [resultCheck_gen hm, responseOf_chk, if_neg (by omega), Int.toNat_natCast, hbase, hcheck, decide_eq_true rfl,
    chkResult_eq]
  simp only [Nat.cast_lt_ofNat, composite_lt_hundred_iff hv]
  rfl

/-! ### The mod-100 accumulator -/

/-- The Luhn terms of `x` with its units digit at position `p`: what is left to add when `p` digits are split off. -/
def luhnSumFrom (m : Memory) (p x : Nat) : Nat :=
  ∑ i ∈ Finset.range (dec x).length, luhnTerm m (p + i) (digit x i)

theorem luhnSumFrom_zero (m : Memory) (x : Nat) : luhnSumFrom m 0 x = luhnSum m x := by
  simp [luhnSumFrom, luhnSum_eq_luhnSumTo, luhnSumTo]

/-- Splitting off the units digit: its term, then the rest one position further, if there is a rest. -/
theorem luhnSumFrom_step (m : Memory) (p x : Nat) :
    luhnSumFrom m p x = luhnTerm m p (x % 10) + if x / 10 = 0 then 0 else luhnSumFrom m (p + 1) (x / 10) := by
  by_cases hx : x / 10 = 0
  · rw [luhnSumFrom, dec_length_of_lt (by omega), if_pos hx]
    simp
  · rw [luhnSumFrom, dec_length_of_le (by omega), if_neg hx, Finset.sum_range_succ', luhnSumFrom]
    simp only [digit_succ, digit_zero, Nat.add_zero, Nat.add_comm, Nat.add_left_comm]

/-- Every Luhn term reads its position mod 2 (spec/40_luhn.md R81), so the sum does. -/
theorem luhnSumFrom_congr (m : Memory) {p p' : Nat} (h : p % 2 = p' % 2) (x : Nat) :
    luhnSumFrom m p x = luhnSumFrom m p' x := by
  refine Finset.sum_congr rfl fun i _ => ?_
  rw [luhnTerm, luhnTerm, Nat.add_mod, h, ← Nat.add_mod]

/-- `POS <- 1 - POS` is the next position mod 2. -/
theorem LuhnRegs.digitStep_pos (m : Memory) (r : LuhnRegs) :
    (r.digitStep m).pos.toNat % 2 = (r.pos.toNat + 1) % 2 := by
  have hpos : ∀ pos : BitVec 1, (1 - pos).toNat % 2 = (pos.toNat + 1) % 2 := by decide
  exact hpos r.pos

/-- One digit more in the accumulator, which holds a sum mod 100 and so loses nothing in its 7 bits. -/
theorem LuhnRegs.digitStep_acc (m : Memory) (r : LuhnRegs) :
    (r.digitStep m).acc.toNat = (r.acc.toNat + luhnTerm m r.pos.toNat (r.q % 10)) % 100 := by
  have hpos : r.pos.toNat % 2 = r.pos.toNat := Nat.mod_eq_of_lt r.pos.isLt
  rw [luhnTerm, hpos, LuhnRegs.digitStep, BitVec.toNat_ofNat]
  exact Nat.mod_eq_of_lt (by omega)

theorem LuhnRegs.run_of_last (m : Memory) (fuel : Nat) {r : LuhnRegs} (h : r.q / 10 = 0) :
    r.run m (fuel + 1) = r.digitStep m := if_pos h

theorem LuhnRegs.run_acc_of_last (m : Memory) (fuel : Nat) {r : LuhnRegs} (h : r.q / 10 = 0) :
    (r.run m (fuel + 1)).acc.toNat = (r.acc.toNat + luhnSumFrom m r.pos.toNat r.q) % 100 := by
  rw [run_of_last m fuel h, digitStep_acc, luhnSumFrom_step, if_pos h, Nat.add_zero]

theorem LuhnRegs.run_of_not_last (m : Memory) (fuel : Nat) {r : LuhnRegs} (h : r.q / 10 ≠ 0) :
    r.run m (fuel + 1) = (r.digitStep m).run m fuel := if_neg h

/-- The loop adds the terms of every digit of Q to ACC, mod 100. -/
theorem LuhnRegs.run_acc (m : Memory) {fuel : Nat} {r : LuhnRegs} (hq : r.q < 2 ^ (fuel + 1)) :
    (r.run m (fuel + 1)).acc.toNat = (r.acc.toNat + luhnSumFrom m r.pos.toNat r.q) % 100 := by
  induction fuel generalizing r with
  | zero => exact run_acc_of_last m 0 (by omega)
  | succ fuel ih =>
    by_cases hlast : r.q / 10 = 0
    · exact run_acc_of_last m _ hlast
    · have hq' : (r.digitStep m).q < 2 ^ (fuel + 1) := by
        change r.q / 10 < 2 ^ (fuel + 1)
        omega
      have hrest : luhnSumFrom m (r.digitStep m).pos.toNat (r.digitStep m).q =
          luhnSumFrom m (r.pos.toNat + 1) (r.q / 10) := luhnSumFrom_congr m (digitStep_pos m r) _
      rw [run_of_not_last m _ hlast, ih hq', hrest, digitStep_acc, Nat.mod_add_mod, luhnSumFrom_step m _ r.q,
        if_neg hlast, Nat.add_assoc]

theorem luhnAccumulator_eq_luhnCheck (m : Memory) (r : LuhnRegs) (x : Nat) :
    luhnAccumulator m r x = luhnCheck m x := by
  have hacc : ((r.load x).run m (x.log2 + 1)).acc.toNat = luhnSum m x % 100 := by
    have hload : (r.load x).q < 2 ^ (x.log2 + 1) := Nat.lt_log2_self
    rw [LuhnRegs.run_acc m hload, ← luhnSumFrom_zero]
    simp [LuhnRegs.load]
  rw [luhnAccumulator, hacc, luhnCheck]

/-! ### One wrong digit -/

/-- The Luhn terms of the first `n` positions of `x` but for position `k`. -/
def luhnSumBut (m : Memory) (n k x : Nat) : Nat := ∑ i ∈ (Finset.range n).erase k, luhnTerm m i (digit x i)

theorem luhnSumBut_congr (m : Memory) (n : Nat) {x y k : Nat} (h : ∀ i, i ≠ k → digit x i = digit y i) :
    luhnSumBut m n k x = luhnSumBut m n k y :=
  Finset.sum_congr rfl fun i hi => by rw [h i (Finset.ne_of_mem_erase hi)]

theorem luhnSum_eq_termByRule_add {m : Memory} (hm : m.lt = romOfRows tableLT) {n k x : Nat} (hk : k < n)
    (hn : (dec x).length ≤ n) : luhnSum m x = termByRule k (digit x k) + luhnSumBut m n k x := by
  rw [← luhnSumTo_eq_of_length_le hm hn, ← luhnTerm_eq_termByRule hm k (digit_le x k)]
  exact (Finset.add_sum_erase _ (fun i => luhnTerm m i (digit x i)) (Finset.mem_range.mpr hk)).symm

/-- One changed digit changes the Luhn sum by the change of its term, which is not 0 and less than 10, so it changes the sum
mod 100 (spec/40_luhn.md R87 (b)). -/
theorem luhnCheck_ne_of_one_digit {m : Memory} (hm : m.lt = romOfRows tableLT) {x y k : Nat}
    (hk : digit x k ≠ digit y k) (h : ∀ i, i ≠ k → digit x i = digit y i) : luhnCheck m x ≠ luhnCheck m y := by
  obtain ⟨n, hkn, hx, hy⟩ : ∃ n, k < n ∧ (dec x).length ≤ n ∧ (dec y).length ≤ n :=
    ⟨(dec x).length + (dec y).length + k + 1, by omega, by omega, by omega⟩
  have hterm : termByRule k (digit x k) ≠ termByRule k (digit y k) :=
    mt (termByRule_inj (digit_le x k) (digit_le y k)) hk
  have htx := termByRule_le (i := k) (digit_le x k)
  have hty := termByRule_le (i := k) (digit_le y k)
  rw [luhnCheck, luhnCheck, luhnSum_eq_termByRule_add hm hkn hx, luhnSum_eq_termByRule_add hm hkn hy,
    luhnSumBut_congr m n h]
  omega

/-- One wrong digit: in the check field it leaves the base, in the base it leaves the check field and changes the check
value of the base. -/
theorem luhnCheck_ne_compositeCheck_of_one_digit {m : Memory} (hm : m.lt = romOfRows tableLT) {c c' j : Nat}
    (hj : digit c j ≠ digit c' j) (h : ∀ i, i ≠ j → digit c i = digit c' i)
    (hc : luhnCheck m (compositeBase c) = compositeCheck c) :
    luhnCheck m (compositeBase c') ≠ compositeCheck c' := by
  by_cases hfield : j < 2
  · have hbase : compositeBase c = compositeBase c' := compositeBase_eq_of_digit_eq fun i hi => h i (by omega)
    rw [← hbase, hc]
    intro hcheck
    have hcc' : c = c' := by
      rw [← composite_compositeBase_compositeCheck c, hbase, hcheck, composite_compositeBase_compositeCheck]
    exact hj (hcc' ▸ rfl)
  · obtain ⟨k, rfl⟩ := Nat.exists_eq_add_of_le' (not_lt.mp hfield)
    have hcheck : compositeCheck c = compositeCheck c' := compositeCheck_eq_of_digit_eq fun i hi => h i (by omega)
    have hbases : luhnCheck m (compositeBase c) ≠ luhnCheck m (compositeBase c') := by
      refine luhnCheck_ne_of_one_digit hm (k := k) ?_ fun i hi => ?_
      · rwa [digit_compositeBase, digit_compositeBase]
      · rw [digit_compositeBase, digit_compositeBase, h _ (by omega)]
    rw [← hcheck, ← hc]
    exact hbases.symm

end Sys2Proof.Machine

open Sys2Proof Sys2Proof.Machine Sys2Proof.Safety

/-- Settles O14: exec gives LUHN.GEN's response, whose check value in the ROM_LT of R42 is the doubling rule's. -/
theorem luhnGenGivesTheCheckValue : Obligations.LuhnGenGivesTheCheckValue := by
  intro x s hm
  refine ⟨fun _ => cmdOfFields_eq_ofNat false false, ?_⟩
  rw [exec_eq_respond, responseOf, luhnGen_eq, luhnCheck_eq_luhnByRule hm, State.respond]

/-- Settles O15: exec gives LUHN.CHK's response, whose comparison in the ROM_LT of R42 is with the doubling rule's value. -/
theorem luhnChkComparesTheCheckValue : Obligations.LuhnChkComparesTheCheckValue := by
  intro x s hm
  refine ⟨fun _ => cmdOfFields_eq_ofNat true false, ?_⟩
  rw [exec_eq_respond, responseOf, luhnChk_eq, luhnCheck_eq_luhnByRule hm, State.respond, compositeBase,
    compositeCheck]

/-- Settles O39: the accumulator keeps the sum of the digits split off, mod 100, and the fixed scan adds zero terms beyond
the last digit. -/
theorem luhnDatapathsComputeLuhnCheck : Obligations.LuhnDatapathsComputeLuhnCheck := by
  refine ⟨luhnAccumulator_eq_luhnCheck, fun m w x hm hx => ?_⟩
  rw [luhnFixedScan_eq, luhnSumTo_eq_of_length_le hm (dec_length_le_nMax hx), luhnCheck]

/-- Settles O43: the check field is two more digits behind those of the base. -/
theorem compositeIsBaseThenCheckDigits : Obligations.CompositeIsBaseThenCheckDigits := by
  intro b v hv
  refine ⟨fun hb => dec_composite hb hv, (composite_lt_hundred_iff hv).mpr rfl, fun hb => ?_,
    compositeBase_composite hv, compositeCheck_composite hv⟩
  have hop : Config.opMax 64 = 9223372036854775807 := by decide
  unfold composite
  omega

/-- Settles O44: the round trip of the engine with ENG 0. -/
theorem luhnRoundTrip : Obligations.LuhnRoundTrip := fun _ b hm => chk_composite_gen hm false b

/-- Settles O46: a composite that matches compares equal, and one with one digit changed does not. -/
theorem luhnDetectsSingleDigitErrors : Obligations.LuhnDetectsSingleDigitErrors := by
  intro m c c' j hm hc hc' hj h hmatch
  have hcheck : luhnCheck m (compositeBase c) = compositeCheck c := by
    by_contra hne
    rw [luhnChk_of_le hc, if_neg hne] at hmatch
    cases hmatch
  rw [luhnChk_of_le hc', if_neg (luhnCheck_ne_compositeCheck_of_one_digit hm hj h hcheck)]

/-- Settles O49: the four composites are evaluated. -/
theorem undetectedErrorsOfTheSpec : Obligations.UndetectedErrorsOfTheSpec := by
  refine ⟨?_, ?_, ?_, ?_⟩ <;> decide +kernel
end

section
/-! The VERH engine of spec/41_verhoeff.md (R101 to R107). The fold of R101 is said over positions, from any row and any
value on, so that both passes and both lanes of the pipeline are folds of one kind. The default D is the dihedral group
of order 10 and every row of the default P is a power of sigma; what the rules say of the default tables follows from
the group laws and one property of sigma. -/

/-! ### The fold by positions -/

namespace Sys2Proof.Machine
open Sys2Proof Sys2Proof.Safety

/-- The fold of the digits at positions `0 .. n-1`, from the value `c` on, with position `i` read through row
`(p + i + 1) mod 8` of P. The fold of R101 has `p = 0` and `c = 0`. -/
def foldFrom (m : Memory) (p : Nat) (c : Nibble) (digits : Nat → Nat) : Nat → Nibble
  | 0 => c
  | n + 1 => dRead m (foldFrom m p c digits n) (pRead m ((p + n + 1) % 8) (digits n))

section
variable (m : Memory) (p : Nat) (c : Nibble) (digits : Nat → Nat) (n : Nat)

@[simp] theorem foldFrom_zero : foldFrom m p c digits 0 = c := rfl

theorem foldFrom_succ : foldFrom m p c digits (n + 1) =
    dRead m (foldFrom m p c digits n) (pRead m ((p + n + 1) % 8) (digits n)) := rfl

/-- Position 0 taken first, then the others one row further. -/
theorem foldFrom_succ' : foldFrom m p c digits (n + 1) =
    foldFrom m (p + 1) (dRead m c (pRead m ((p + 1) % 8) (digits 0))) (fun i => digits (i + 1)) n := by
  induction n with
  | zero => rfl
  | succ n ih => rw [foldFrom_succ, ih, foldFrom_succ, Nat.add_right_comm p 1 n, ← Nat.add_assoc]

end

theorem foldFrom_congr (m : Memory) {p p' : Nat} (hp : p % 8 = p' % 8) (c : Nibble) {digits digits' : Nat → Nat}
    {n : Nat} (h : ∀ i < n, digits i = digits' i) : foldFrom m p c digits n = foldFrom m p' c digits' n := by
  induction n with
  | zero => rfl
  | succ n ih =>
    have hrow : (p + n + 1) % 8 = (p' + n + 1) % 8 := by omega
    rw [foldFrom_succ, foldFrom_succ, ih fun i hi => h i (by omega), hrow, h n n.lt_succ_self]

theorem foldFrom_le {m : Memory} (hm : readsDigits m) (p : Nat) {c : Nibble} (hc : c.toNat ≤ 9) {digits : Nat → Nat}
    (hdigits : ∀ i, digits i ≤ 9) (n : Nat) : (foldFrom m p c digits n).toNat ≤ 9 := by
  obtain ⟨hd, hp, -⟩ := hm
  induction n with
  | zero => exact hc
  | succ n ih => exact hd _ _ ih (hp _ _ (by omega) (hdigits n))

theorem vFold_eq_foldFrom (m : Memory) (s : List Nat) : vFold m s = foldFrom m 0 0 (digitAt s) s.length := by
  have hrange : ∀ n, (List.range n).foldl (vStep m s) 0 = foldFrom m 0 0 (digitAt s) n := by
    intro n
    induction n with
    | zero => rfl
    | succ n ih => rw [List.range_succ, List.foldl_concat, ih, foldFrom_succ, vStep, Nat.zero_add]
  exact hrange s.length

/-! ### The positions of a digit list -/

theorem digitAt_cons_length (d : Nat) (s : List Nat) : digitAt (d :: s) s.length = d := by
  simp [digitAt]

theorem digitAt_cons_of_lt {s : List Nat} {i : Nat} (d : Nat) (hi : i < s.length) :
    digitAt (d :: s) i = digitAt s i := by
  have hindex : (d :: s).length - 1 - i = s.length - 1 - i + 1 := by simp; omega
  rw [digitAt, hindex, List.getD_cons_succ, digitAt]

theorem digitAt_concat_zero (s : List Nat) (d : Nat) : digitAt (s ++ [d]) 0 = d := by
  simp [digitAt]

theorem digitAt_concat_succ {s : List Nat} {i : Nat} (d : Nat) (hi : i < s.length) :
    digitAt (s ++ [d]) (i + 1) = digitAt s i := by
  have hindex : (s ++ [d]).length - 1 - (i + 1) = s.length - 1 - i := by simp; omega
  rw [digitAt, hindex, List.getD_append _ _ _ _ (by omega), digitAt]

theorem digitAt_dec {x i : Nat} (hi : i < (dec x).length) : digitAt (dec x) i = digit x i := by
  rw [digitAt, List.getD_eq_getElem?_getD, dec_getElem?_rev hi, Option.getD_some]

/-- The leading digit is combined last (spec/41_verhoeff.md R101). -/
theorem vFold_cons (m : Memory) (d : Nat) (s : List Nat) :
    vFold m (d :: s) = dRead m (vFold m s) (pRead m ((s.length + 1) % 8) d) := by
  rw [vFold_eq_foldFrom, vFold_eq_foldFrom, List.length_cons, foldFrom_succ, digitAt_cons_length, Nat.zero_add,
    foldFrom_congr m rfl 0 fun _ hi => digitAt_cons_of_lt d hi]

theorem vFold_dec (m : Memory) (x : Nat) : vFold m (dec x) = foldFrom m 0 0 (digit x) (dec x).length := by
  rw [vFold_eq_foldFrom, foldFrom_congr m rfl 0 fun _ hi => digitAt_dec hi]

/-- Pass 2 of spec/41_verhoeff.md R102: the digit appended takes row 1, and those of the base one row further. -/
theorem vFold_dec_concat (m : Memory) (x d : Nat) :
    vFold m (dec x ++ [d]) = foldFrom m 1 (dRead m 0 (pRead m 1 d)) (digit x) (dec x).length := by
  have hdigits : ∀ i < (dec x).length, digitAt (dec x ++ [d]) (i + 1) = digit x i := fun i hi =>
    (digitAt_concat_succ d hi).trans (digitAt_dec hi)
  rw [vFold_eq_foldFrom, List.length_append, List.length_singleton, foldFrom_succ', digitAt_concat_zero,
    foldFrom_congr m rfl _ hdigits]

/-! ### The dual-permutation pipeline -/

/-- What the two lanes hold when `n` digits of Q have gone through them: two folds of the digits of Q, the second one
row further. -/
def VerhRegs.lanes (m : Memory) (r : VerhRegs) (n : Nat) : Nibble × Nibble :=
  (foldFrom m r.pos.toNat r.c1 (digit r.q) n, foldFrom m (r.pos.toNat + 1) r.m2 (digit r.q) n)

theorem VerhRegs.lanes_zero (m : Memory) (r : VerhRegs) : r.lanes m 0 = (r.c1, r.m2) := rfl

/-- The loop's body takes one digit off Q and puts it through both lanes; POS wraps mod 8, as the rows do. -/
theorem VerhRegs.lanes_digitStep (m : Memory) (r : VerhRegs) (n : Nat) :
    (r.digitStep m).lanes m n = r.lanes m (n + 1) := by
  have hpos : (r.pos + 1).toNat = (r.pos.toNat + 1) % 8 := by simp [BitVec.toNat_add]
  have hpos' : (r.pos + 2).toNat = (r.pos.toNat + 1 + 1) % 8 := by simp [BitVec.toNat_add]
  have hdigits : ∀ i < n, digit (r.q / 10) i = digit r.q (i + 1) := fun i _ => (digit_succ r.q i).symm
  simp only [lanes, digitStep, hpos, hpos', foldFrom_succ', digit_zero]
  exact Prod.ext (foldFrom_congr m (Nat.mod_mod _ 8) _ hdigits) (foldFrom_congr m (Nat.mod_add_mod _ 8 1) _ hdigits)

theorem VerhRegs.run_of_last (m : Memory) (fuel : Nat) {r : VerhRegs} (h : r.q / 10 = 0) :
    r.run m (fuel + 1) = r.digitStep m := if_pos h

theorem VerhRegs.run_of_not_last (m : Memory) (fuel : Nat) {r : VerhRegs} (h : r.q / 10 ≠ 0) :
    r.run m (fuel + 1) = (r.digitStep m).run m fuel := if_neg h

theorem VerhRegs.run_lanes_of_last (m : Memory) (fuel : Nat) {r : VerhRegs} (h : r.q / 10 = 0) :
    (r.run m (fuel + 1)).lanes m 0 = r.lanes m (dec r.q).length := by
  rw [run_of_last m fuel h, lanes_digitStep, dec_length_of_lt (by omega)]

/-- The loop puts every digit of Q through the lanes. -/
theorem VerhRegs.run_lanes (m : Memory) {fuel : Nat} {r : VerhRegs} (hq : r.q < 2 ^ (fuel + 1)) :
    (r.run m (fuel + 1)).lanes m 0 = r.lanes m (dec r.q).length := by
  induction fuel generalizing r with
  | zero => exact run_lanes_of_last m 0 (by omega)
  | succ fuel ih =>
    by_cases hlast : r.q / 10 = 0
    · exact run_lanes_of_last m _ hlast
    · have hq' : (r.digitStep m).q < 2 ^ (fuel + 1) := by
        change r.q / 10 < 2 ^ (fuel + 1)
        omega
      rw [run_of_not_last m _ hlast, ih hq', lanes_digitStep, dec_length_of_le (x := r.q) (by omega)]
      rfl

/-- Where D is associative, a factor on the left of the start value is one on the left of the fold. -/
theorem foldFrom_dRead_left {m : Memory} (hm : readsDigits m) (hassoc : dAssociative m) {a c : Nibble}
    (ha : a.toNat ≤ 9) (hc : c.toNat ≤ 9) {digits : Nat → Nat} (hdigits : ∀ i, digits i ≤ 9) (p n : Nat) :
    foldFrom m p (dRead m a c) digits n = dRead m a (foldFrom m p c digits n) := by
  induction n with
  | zero => rfl
  | succ n ih =>
    have hfold := foldFrom_le hm p hc hdigits n
    obtain ⟨-, hp, -⟩ := hm
    rw [foldFrom_succ, ih, hassoc _ _ _ ha hfold (hp _ _ (by omega) (hdigits n)), foldFrom_succ]

/-- Pass 2 splits into the first check digit, mapped, times the second lane of the pipeline (spec/41_verhoeff.md
R105). -/
theorem vFold_dec_concat_of_group {m : Memory} (hm : readsDigits m) (hassoc : dAssociative m) (hid : dIdentity m)
    (x : Nat) {d : Nat} (hd : d ≤ 9) :
    vFold m (dec x ++ [d]) = dRead m (pRead m 1 d) (foldFrom m 1 0 (digit x) (dec x).length) := by
  have hmapped : (pRead m 1 d).toNat ≤ 9 := by
    obtain ⟨-, hp, -⟩ := hm
    exact hp _ _ (by decide) hd
  obtain ⟨hleft, hright⟩ := hid _ hmapped
  have hstart : dRead m 0 (pRead m 1 d) = dRead m (pRead m 1 d) 0 := hleft.trans hright.symm
  rw [vFold_dec_concat, hstart, foldFrom_dRead_left hm hassoc hmapped (by decide) (digit_le x)]

theorem verhPipeline_eq_verhDigits {m : Memory} (hm : readsDigits m) (hassoc : dAssociative m) (hid : dIdentity m)
    (r : VerhRegs) (x : Nat) : verhPipeline m r x = verhDigits m x := by
  have hlanes : ((r.load x).run m (x.log2 + 1)).lanes m 0 = (r.load x).lanes m (dec x).length :=
    VerhRegs.run_lanes m (r := r.load x) Nat.lt_log2_self
  obtain ⟨hc1, hm2⟩ := Prod.mk.inj hlanes
  have hc1 : ((r.load x).run m (x.log2 + 1)).c1 = vFold m (dec x) := hc1.trans (vFold_dec m x).symm
  have hm2 : ((r.load x).run m (x.log2 + 1)).m2 = foldFrom m 1 0 (digit x) (dec x).length := hm2
  have hfirst : (verhFirst m (dec x)).toNat ≤ 9 := invRead_vFold_le hm (isDigits_dec x)
  rw [verhDigits, verhSecond, vFold_dec_concat_of_group hm hassoc hid x hfirst, verhFirst, ← hc1, ← hm2]
  rfl


/-! ### Both commands in the terms of the digits they compute -/

theorem verhGen_eq {m : Memory} (hm : readsDigits m) (x : Int) :
    verhGen m x =
      if x < 0 then { status := .invalidInput, result := 0 }
      else
        { status := .ok
          result := BitVec.ofNat 32 (10 * (verhDigits m x.toNat).1.toNat + (verhDigits m x.toNat).2.toNat +
            256 * (verhDigits m x.toNat).1.toNat + 4096 * (verhDigits m x.toNat).2.toNat) } := by
  obtain ⟨hhi, hlo⟩ := verhDigits_le hm x.toNat
  rw [← genResult_eq _ _ hhi hlo]
  rfl

theorem verhChk_eq (m : Memory) (x : Int) :
    verhChk m x =
      if x < 0 then { status := .invalidInput, result := 0 }
      else if x < 100 then { status := .tooShort, result := 0 }
      else
        { status := .ok
          result := if verhCheck m (compositeBase x.toNat) = compositeCheck x.toNat then 65536 else 0 } := by
  simp only [verhChk, raise, respondOk, chkResult_eq, decide_eq_true_eq]

/-- A composite of 100 or more is answered OK, with MATCH alone in RESULT. -/
theorem verhChk_of_le {m : Memory} {c : Nat} (hc : 100 ≤ c) :
    verhChk m c = { status := .ok,
                    result := if verhCheck m (compositeBase c) = compositeCheck c then 65536 else 0 } := by
  rw [verhChk_eq, if_neg (by omega), if_neg (by omega), Int.toNat_natCast]

/-! ### The fold and the digits by tables of numbers -/

/-- The fold of a digit list given least significant first, from position `i` on, with D and P given as functions of
numbers (spec/41_verhoeff.md R101). -/
def foldWith (D P : Nat → Nat → Nat) : Nat → Nat → List Nat → Nat
  | _, c, [] => c
  | i, c, d :: rest => foldWith D P (i + 1) (D c (P ((i + 1) % 8) d)) rest

/-- The two check digits with D, P and Inv given as functions of numbers (spec/41_verhoeff.md R102). -/
def verhWith (D P : Nat → Nat → Nat) (I : Nat → Nat) (x : Nat) : Nat × Nat :=
  let first := I (foldWith D P 0 0 (digitsByRule x))
  (first, I (foldWith D P 0 0 (first :: digitsByRule x)))

theorem foldByRule_eq_foldWith (i c : Nat) (s : List Nat) : foldByRule i c s = foldWith dihedral sigmaPow i c s := by
  induction s generalizing i c with
  | nil => rfl
  | cons d rest ih => exact ih _ _

theorem foldByTables_eq_foldWith (m : Memory) (i c : Nat) (s : List Nat) :
    foldByTables m i c s = foldWith (tableEntry m.d) (tableEntry m.p) i c s := by
  induction s generalizing i c with
  | nil => rfl
  | cons d rest ih => exact ih _ _

theorem verhByRule_eq_verhWith (x : Nat) : verhByRule x = verhWith dihedral sigmaPow inverseByRule x := by
  simp only [verhByRule, verhWith, foldByRule_eq_foldWith]

theorem verhByTables_eq_verhWith (m : Memory) (x : Nat) :
    verhByTables m x = verhWith (tableEntry m.d) (tableEntry m.p) (tableEntry m.inv 0) x := by
  simp only [verhByTables, verhWith, foldByTables_eq_foldWith]

/-- The last digit of the list, which is the leading one, is combined last. -/
theorem foldWith_concat (D P : Nat → Nat → Nat) (i c d : Nat) (s : List Nat) :
    foldWith D P i c (s ++ [d]) = D (foldWith D P i c s) (P ((i + s.length + 1) % 8) d) := by
  induction s generalizing i c with
  | nil => rfl
  | cons d' rest ih =>
    rw [List.cons_append, foldWith, ih, foldWith, List.length_cons, Nat.add_right_comm i 1, Nat.add_assoc i]

theorem digitsByRule_eq (x : Nat) : digitsByRule x = digitsLow x := (digitsLow_eq x).symm

/-- The ROMs read digits, and read them as D, P and Inv given as functions of numbers say. -/
structure RomsRead (m : Memory) (D P : Nat → Nat → Nat) (I : Nat → Nat) : Prop where
  digits : readsDigits m
  d   : ∀ r c : Nibble, r.toNat ≤ 9 → c.toNat ≤ 9 → (dRead m r c).toNat = D r.toNat c.toNat
  p   : ∀ k d, k ≤ 7 → d ≤ 9 → (pRead m k d).toNat = P k d
  inv : ∀ c : Nibble, c.toNat ≤ 9 → (invRead m c).toNat = I c.toNat

section
variable {m : Memory} {D P : Nat → Nat → Nat} {I : Nat → Nat}

theorem RomsRead.vFold (h : RomsRead m D P I) {s : List Nat} (hs : isDigits s) :
    (vFold m s).toNat = foldWith D P 0 0 s.reverse := by
  obtain ⟨-, hpDigit, -⟩ := h.digits
  induction s with
  | nil => rfl
  | cons d s ih =>
    obtain ⟨hd, hs⟩ := List.forall_mem_cons.mp hs
    have hrow : (s.length + 1) % 8 ≤ 7 := by omega
    rw [vFold_cons, h.d _ _ (vFold_le h.digits hs) (hpDigit _ _ hrow hd), h.p _ _ hrow hd, ih hs, List.reverse_cons,
      foldWith_concat, List.length_reverse, Nat.zero_add]

theorem RomsRead.invRead_vFold (h : RomsRead m D P I) {s : List Nat} (hs : isDigits s) :
    (invRead m (Machine.vFold m s)).toNat = I (foldWith D P 0 0 s.reverse) := by
  rw [h.inv _ (vFold_le h.digits hs), h.vFold hs]

theorem RomsRead.verhDigits (h : RomsRead m D P I) (x : Nat) :
    (verhDigits m x).1.toNat = (verhWith D P I x).1 ∧ (verhDigits m x).2.toNat = (verhWith D P I x).2 := by
  have hfirst : (verhFirst m (dec x)).toNat = I (foldWith D P 0 0 (digitsByRule x)) := by
    rw [verhFirst, h.invRead_vFold (isDigits_dec x), dec_reverse, digitsByRule_eq]
  have hdigit : (verhFirst m (dec x)).toNat ≤ 9 := invRead_vFold_le h.digits (isDigits_dec x)
  have hs : isDigits (dec x ++ [(verhFirst m (dec x)).toNat]) :=
    List.forall_mem_append.mpr ⟨isDigits_dec x, List.forall_mem_singleton.mpr hdigit⟩
  refine ⟨hfirst, ?_⟩
  rw [Machine.verhDigits, verhSecond, h.invRead_vFold hs, List.reverse_concat, dec_reverse, hfirst, verhWith,
    digitsByRule_eq]

/-- The response of VERH.GEN (spec/41_verhoeff.md R103) in ROMs that read as D, P and Inv. -/
theorem RomsRead.verhGen (h : RomsRead m D P I) (x : Int) :
    verhGen m x =
      if x < 0 then { status := .invalidInput, result := 0 }
      else
        { status := .ok
          result := BitVec.ofNat 32 (10 * (verhWith D P I x.toNat).1 + (verhWith D P I x.toNat).2 +
            256 * (verhWith D P I x.toNat).1 + 4096 * (verhWith D P I x.toNat).2) } := by
  obtain ⟨hfirst, hsecond⟩ := h.verhDigits x.toNat
  rw [verhGen_eq h.digits, hfirst, hsecond]

/-- The response of VERH.CHK (spec/41_verhoeff.md R104) in ROMs that read as D, P and Inv. -/
theorem RomsRead.verhChk (h : RomsRead m D P I) (x : Int) :
    verhChk m x =
      if x < 0 then { status := .invalidInput, result := 0 }
      else if x < 100 then { status := .tooShort, result := 0 }
      else
        { status := .ok
          result :=
            if 10 * (verhWith D P I (x.toNat / 100)).1 + (verhWith D P I (x.toNat / 100)).2 = x.toNat % 100
            then 65536 else 0 } := by
  obtain ⟨hfirst, hsecond⟩ := h.verhDigits (x.toNat / 100)
  rw [verhChk_eq, verhCheck, compositeBase, compositeCheck, hfirst, hsecond]

end

/-! ### Legal ROMs read the entries they list, and the default ones the closed forms -/

/-- A ROM in canonical form reads the entry its table lists. -/
theorem romRead_toNat_eq_tableEntry {m : Memory} {id : RomId} {rows n row col : Nat} {index : BitVec n}
    (hwf : (m.rom id).map Prod.fst = tableIndexes rows) (hrow : row < rows) (hcol : col ≤ 9)
    (hindex : index.toNat = 16 * row + col) : (romRead m id index).toNat = tableEntry (m.rom id) row col := by
  have hmem := mem_tableIndexes hrow hcol
  rw [← hwf, List.mem_map] at hmem
  obtain ⟨cell, hcell, hfst⟩ := hmem
  have hsome : ((m.rom id).lookup (16 * row + col)).isSome :=
    List.lookup_isSome_iff.mpr ⟨cell, hcell, by simp [hfst]⟩
  obtain ⟨v, hv⟩ := Option.isSome_iff_exists.mp hsome
  rw [romRead_listed (hindex ▸ hv), tableEntry, hv, Option.getD_some]

theorem romsRead_tableEntry {m : Memory} (hm : m.legal = true) :
    RomsRead m (tableEntry m.d) (tableEntry m.p) (tableEntry m.inv 0) := by
  have hdigits := readsDigits_of_legal hm
  simp only [Memory.legal, Memory.wf, Bool.and_eq_true, decide_eq_true_eq] at hm
  obtain ⟨⟨⟨⟨⟨⟨⟨⟨-, hd⟩, hp⟩, hinv⟩, -⟩, -⟩, -⟩, -⟩, -⟩ := hm
  refine ⟨hdigits, fun r c hr hc => ?_, fun k d hk hd => ?_, fun c hc => ?_⟩
  · exact romRead_toNat_eq_tableEntry (id := .d) hd (by omega) hc (dIndex_toNat r c)
  · refine romRead_toNat_eq_tableEntry (id := .p) hp (by omega) hd ?_
    rw [pIndex_toNat, Nat.mod_eq_of_lt (by omega : k < 8), Nat.mod_eq_of_lt (by omega : d < 16)]
  · exact romRead_toNat_eq_tableEntry (id := .inv) hinv one_pos hc (by omega)

/-- A read of one ROM depends on that ROM alone. -/
theorem romRead_eq_of_rom_eq {m m' : Memory} {id : RomId} (h : m.rom id = m'.rom id) {n : Nat} (index : BitVec n) :
    romRead m id index = romRead m' id index := by
  rw [romRead, romRead, h]

theorem readsDigits_defaultMemory : readsDigits defaultMemory := readsDigits_of_legal defaultMemory_legal

theorem romsRead_defaultMemory : RomsRead defaultMemory dihedral sigmaPow inverseByRule := by
  obtain ⟨-, hd, hp, -⟩ := defaultRomsMeetTheirClosedForms
  have hinv : ∀ c : Nibble, c.toNat ≤ 9 → (invRead defaultMemory c).toNat = inverseByRule c.toNat := by
    decide +kernel
  refine ⟨readsDigits_defaultMemory, fun r c hr hc => ?_, fun k d hk hd => hp k d (by omega) (by omega), hinv⟩
  simpa using hd r.toNat c.toNat (by omega) (by omega)

/-- The VERH engine reads no ROM_LT, so the tables of R43 to R45 suffice. -/
theorem romsRead_closedForms {m : Memory} (hd : m.d = romOfRows tableD) (hp : m.p = romOfRows tableP)
    (hinv : m.inv = romOfRows tableInv) : RomsRead m dihedral sigmaPow inverseByRule := by
  have hdRead : dRead m = dRead defaultMemory :=
    funext₂ fun _ _ => romRead_eq_of_rom_eq (m' := defaultMemory) (id := .d) hd _
  have hpRead : pRead m = pRead defaultMemory :=
    funext₂ fun _ _ => romRead_eq_of_rom_eq (m' := defaultMemory) (id := .p) hp _
  have hinvRead : invRead m = invRead defaultMemory :=
    funext fun _ => romRead_eq_of_rom_eq (m' := defaultMemory) (id := .inv) hinv _
  obtain ⟨hdigits, hd, hp, hinv⟩ := romsRead_defaultMemory
  constructor
  · rwa [readsDigits, hdRead, hpRead, hinvRead]
  · rwa [hdRead]
  · rwa [hpRead]
  · rwa [hinvRead]

/-! ### The default D is the dihedral group of order 10 -/

/-- The group element a digit stands for: 0 to 4 the rotations, 5 to 9 the reflections (spec/20_memory.md R43). -/
def groupElement (c : Nibble) : DihedralGroup 5 :=
  if c.toNat < 5 then .r c.toNat else .sr (-c.toNat)

@[simp] theorem groupElement_zero : groupElement 0 = 1 := rfl

theorem groupElement_dRead {a b : Nibble} (ha : a.toNat ≤ 9) (hb : b.toNat ≤ 9) :
    groupElement (dRead defaultMemory a b) = groupElement a * groupElement b := by
  have h : ∀ a b : Nibble, a.toNat ≤ 9 → b.toNat ≤ 9 →
      groupElement (dRead defaultMemory a b) = groupElement a * groupElement b := by decide +kernel
  exact h a b ha hb

theorem groupElement_inj {a b : Nibble} (ha : a.toNat ≤ 9) (hb : b.toNat ≤ 9) (h : groupElement a = groupElement b) :
    a = b := by
  have hinj : ∀ a b : Nibble, a.toNat ≤ 9 → b.toNat ≤ 9 → groupElement a = groupElement b → a = b := by
    decide +kernel
  exact hinj a b ha hb h

theorem dRead_default_le {a b : Nibble} (ha : a.toNat ≤ 9) (hb : b.toNat ≤ 9) : (dRead defaultMemory a b).toNat ≤ 9 := by
  obtain ⟨hd, -⟩ := readsDigits_defaultMemory
  exact hd a b ha hb

theorem dAssociative_default : dAssociative defaultMemory := by
  intro a b c ha hb hc
  have hab := dRead_default_le ha hb
  have hbc := dRead_default_le hb hc
  refine groupElement_inj (dRead_default_le hab hc) (dRead_default_le ha hbc) ?_
  rw [groupElement_dRead hab hc, groupElement_dRead ha hb, groupElement_dRead ha hbc, groupElement_dRead hb hc,
    mul_assoc]

theorem dIdentity_default : dIdentity defaultMemory := by
  intro a ha
  have h0 : (0 : Nibble).toNat ≤ 9 := by decide
  constructor
  · exact groupElement_inj (dRead_default_le h0 ha) ha (by rw [groupElement_dRead h0 ha, groupElement_zero, one_mul])
  · exact groupElement_inj (dRead_default_le ha h0) ha (by rw [groupElement_dRead ha h0, groupElement_zero, mul_one])

theorem dRead_default_left_cancel {a b c : Nibble} (ha : a.toNat ≤ 9) (hb : b.toNat ≤ 9) (hc : c.toNat ≤ 9)
    (h : dRead defaultMemory a b = dRead defaultMemory a c) : b = c := by
  refine groupElement_inj hb hc (mul_left_cancel (a := groupElement a) ?_)
  rw [← groupElement_dRead ha hb, ← groupElement_dRead ha hc, h]

theorem dRead_default_right_cancel {a b c : Nibble} (ha : a.toNat ≤ 9) (hb : b.toNat ≤ 9) (hc : c.toNat ≤ 9)
    (h : dRead defaultMemory a c = dRead defaultMemory b c) : a = b := by
  refine groupElement_inj ha hb (mul_right_cancel (b := groupElement c) ?_)
  rw [← groupElement_dRead ha hc, ← groupElement_dRead hb hc, h]

theorem invRead_default_inj {a b : Nibble} (ha : a.toNat ≤ 9) (hb : b.toNat ≤ 9)
    (h : invRead defaultMemory a = invRead defaultMemory b) : a = b := by
  have hinj : ∀ a b : Nibble, a.toNat ≤ 9 → b.toNat ≤ 9 →
      invRead defaultMemory a = invRead defaultMemory b → a = b := by decide +kernel
  exact hinj a b ha hb h

/-! ### The rows of the default P are the powers of sigma -/

theorem pRead_default_le {k d : Nat} (hk : k ≤ 7) (hd : d ≤ 9) : (pRead defaultMemory k d).toNat ≤ 9 := by
  obtain ⟨-, hp, -⟩ := readsDigits_defaultMemory
  exact hp k d hk hd

/-- Each row of a legal P is a permutation of the digits (spec/20_memory.md R46 (c)). -/
theorem pRead_inj {m : Memory} (hm : m.legal = true) {k a b : Nat} (hk : k ≤ 7) (ha : a ≤ 9) (hb : b ≤ 9)
    (h : pRead m k a = pRead m k b) : a = b := by
  rw [Memory.legal, Bool.and_eq_true, List.all_eq_true] at hm
  obtain ⟨-, hrows⟩ := hm
  have hnodup : ((List.range 10).map fun d => pRead m k d).Nodup :=
    of_decide_eq_true (hrows k (List.mem_range.mpr (by omega)))
  exact List.inj_on_of_nodup_map hnodup (List.mem_range.mpr (by omega)) (List.mem_range.mpr (by omega)) h

/-- A zero digit is mapped to 0 by the identity row alone (spec/41_verhoeff.md R106). -/
theorem pRead_default_zero_iff {k : Nat} (hk : k ≤ 7) : pRead defaultMemory k 0 = 0 ↔ k = 0 := by
  have h : ∀ k < 8, pRead defaultMemory k 0 = 0 ↔ k = 0 := by decide +kernel
  exact h k (by omega)

/-- The next row is sigma = P[1] after this one, from row 7 to the identity row too, since sigma has order 8. -/
theorem pRead_default_succ {k d : Nat} (hk : k ≤ 7) (hd : d ≤ 9) :
    pRead defaultMemory ((k + 1) % 8) d = pRead defaultMemory 1 (pRead defaultMemory k d).toNat := by
  have h : ∀ k < 8, ∀ d < 10,
      pRead defaultMemory ((k + 1) % 8) d = pRead defaultMemory 1 (pRead defaultMemory k d).toNat := by decide +kernel
  exact h k (by omega) d (by omega)

/-- The property Verhoeff chose sigma for: it is anti-symmetric over the group. -/
theorem sigma_antisymmetric {a b : Nibble} (ha : a.toNat ≤ 9) (hb : b.toNat ≤ 9)
    (h : dRead defaultMemory a (pRead defaultMemory 1 b.toNat) =
      dRead defaultMemory b (pRead defaultMemory 1 a.toNat)) : a = b := by
  have hanti : ∀ a b : Nibble, a.toNat ≤ 9 → b.toNat ≤ 9 →
      dRead defaultMemory a (pRead defaultMemory 1 b.toNat) = dRead defaultMemory b (pRead defaultMemory 1 a.toNat) →
      a = b := by decide +kernel
  exact hanti a b ha hb h

/-- Two adjacent digits mapped by their rows and combined, and the same swapped, agree for equal digits alone. -/
theorem pRead_default_antisymmetric {k a b : Nat} (hk : k ≤ 7) (ha : a ≤ 9) (hb : b ≤ 9)
    (h : dRead defaultMemory (pRead defaultMemory k a) (pRead defaultMemory ((k + 1) % 8) b) =
      dRead defaultMemory (pRead defaultMemory k b) (pRead defaultMemory ((k + 1) % 8) a)) : a = b := by
  rw [pRead_default_succ hk ha, pRead_default_succ hk hb] at h
  exact pRead_inj defaultMemory_legal hk ha hb
    (sigma_antisymmetric (pRead_default_le hk ha) (pRead_default_le hk hb) h)

/-- A digit combined on the right leaves the fold as it is exactly when it is 0. -/
theorem dRead_default_eq_self_iff {c d : Nibble} (hc : c.toNat ≤ 9) (hd : d.toNat ≤ 9) :
    dRead defaultMemory c d = c ↔ d = 0 := by
  obtain ⟨-, hzero⟩ := dIdentity_default c hc
  refine ⟨fun h => ?_, fun h => by rw [h, hzero]⟩
  exact dRead_default_left_cancel hc hd (by decide) (h.trans hzero.symm)

/-! ### A wrong digit and a swap change the fold -/

/-- Two folds that differ after `k` positions differ after any more positions with the same digits. -/
theorem foldFrom_default_ne_of_le {p : Nat} {c : Nibble} (hc : c.toNat ≤ 9) {digits digits' : Nat → Nat}
    (hd : ∀ i, digits i ≤ 9) (hd' : ∀ i, digits' i ≤ 9) {k n : Nat} (hkn : k ≤ n)
    (hagree : ∀ i, k ≤ i → digits i = digits' i)
    (hne : foldFrom defaultMemory p c digits k ≠ foldFrom defaultMemory p c digits' k) :
    foldFrom defaultMemory p c digits n ≠ foldFrom defaultMemory p c digits' n := by
  have hm := readsDigits_defaultMemory
  induction n, hkn using Nat.le_induction with
  | base => exact hne
  | succ n hkn ih =>
    rw [foldFrom_succ, foldFrom_succ, hagree n hkn]
    exact mt (dRead_default_right_cancel (foldFrom_le hm p hc hd n) (foldFrom_le hm p hc hd' n)
      (pRead_default_le (by omega) (hd' n))) ih

section
variable {x y k : Nat} (hlen : (dec x).length = (dec y).length)
include hlen

/-- One changed digit: the mapped digit changes, and the group cancels what stands on either side of it. -/
theorem vFold_default_ne_of_one_digit (hk : digit x k ≠ digit y k) (h : ∀ i, i ≠ k → digit x i = digit y i) :
    vFold defaultMemory (dec x) ≠ vFold defaultMemory (dec y) := by
  have hlast : k + 1 ≤ (dec x).length := by
    by_contra hlast
    exact hk ((digit_eq_zero_of_length_le (by omega)).trans (digit_eq_zero_of_length_le (by omega)).symm)
  have hrow : (0 + k + 1) % 8 ≤ 7 := by omega
  have hbefore : foldFrom defaultMemory 0 0 (digit x) k = foldFrom defaultMemory 0 0 (digit y) k :=
    foldFrom_congr _ rfl _ fun i hi => h i (by omega)
  rw [vFold_dec, vFold_dec, ← hlen]
  refine foldFrom_default_ne_of_le (by decide) (digit_le x) (digit_le y) hlast (fun i hi => h i (by omega)) ?_
  rw [foldFrom_succ, foldFrom_succ, ← hbefore]
  intro heq
  have hmapped := dRead_default_left_cancel (foldFrom_le readsDigits_defaultMemory 0 (by decide) (digit_le x) k)
    (pRead_default_le hrow (digit_le x k)) (pRead_default_le hrow (digit_le y k)) heq
  exact hk (pRead_inj defaultMemory_legal hrow (digit_le x k) (digit_le y k) hmapped)

/-- Two unequal adjacent digits swapped: the product of the two mapped digits changes, and the group cancels the
rest. -/
theorem vFold_default_ne_of_swap (hne : digit x k ≠ digit x (k + 1)) (hk : digit y k = digit x (k + 1))
    (hk' : digit y (k + 1) = digit x k) (h : ∀ i, i ≠ k → i ≠ k + 1 → digit x i = digit y i) :
    vFold defaultMemory (dec x) ≠ vFold defaultMemory (dec y) := by
  have hlast : k + 1 + 1 ≤ (dec x).length := by
    by_contra hlast
    have hx : digit x (k + 1) = 0 := digit_eq_zero_of_length_le (by omega)
    have hy : digit y (k + 1) = 0 := digit_eq_zero_of_length_le (by omega)
    exact hne ((hk'.symm.trans hy).trans hx.symm)
  have hrow : (0 + k + 1) % 8 ≤ 7 := by omega
  have hrow' : (0 + (k + 1) + 1) % 8 = ((0 + k + 1) % 8 + 1) % 8 := by omega
  have hbefore : foldFrom defaultMemory 0 0 (digit x) k = foldFrom defaultMemory 0 0 (digit y) k :=
    foldFrom_congr _ rfl _ fun i hi => h i (by omega) (by omega)
  have hfold := foldFrom_le readsDigits_defaultMemory 0 (c := 0) (by decide) (digit_le x) k
  have hmapped : ∀ i, (pRead defaultMemory ((0 + k + 1) % 8) (digit x i)).toNat ≤ 9 := fun i =>
    pRead_default_le hrow (digit_le x i)
  have hmapped' : ∀ i, (pRead defaultMemory (((0 + k + 1) % 8 + 1) % 8) (digit x i)).toNat ≤ 9 := fun i =>
    pRead_default_le (by omega) (digit_le x i)
  rw [vFold_dec, vFold_dec, ← hlen]
  refine foldFrom_default_ne_of_le (by decide) (digit_le x) (digit_le y) hlast
    (fun i hi => h i (by omega) (by omega)) ?_
  rw [foldFrom_succ, foldFrom_succ, foldFrom_succ, foldFrom_succ, ← hbefore, hk, hk', hrow',
    dAssociative_default _ _ _ hfold (hmapped k) (hmapped' (k + 1)),
    dAssociative_default _ _ _ hfold (hmapped (k + 1)) (hmapped' k)]
  intro heq
  have hpair := dRead_default_left_cancel hfold (dRead_default_le (hmapped _) (hmapped' _))
    (dRead_default_le (hmapped _) (hmapped' _)) heq
  exact hne (pRead_default_antisymmetric hrow (digit_le x k) (digit_le x (k + 1)) hpair)

end

/-! ### A composite by its last two digits -/

/-- Each of the last two digits of a composite is Inv of the fold of the digits before it. -/
def checkDigitsHold (m : Memory) (c : Nat) : Prop :=
  (invRead m (vFold m (dec (c / 100)))).toNat = digit c 1 ∧ (invRead m (vFold m (dec (c / 10)))).toNat = digit c 0

/-- VERH.CHK compares both digits at once; where the first agrees, pass 2 runs over the composite but for its last
digit. -/
theorem verhCheck_eq_compositeCheck_iff {m : Memory} (hm : readsDigits m) {c : Nat} (hc : 100 ≤ c) :
    verhCheck m (compositeBase c) = compositeCheck c ↔ checkDigitsHold m c := by
  obtain ⟨hfirst, hsecond⟩ := verhDigits_le hm (c / 100)
  have htens : digit c 1 = c / 10 % 10 := by rw [digit_succ, digit_zero]
  have hdec : dec (c / 10) = dec (c / 100) ++ [digit c 1] := by
    have hsplit : c / 10 = digit c 1 + 10 * (c / 100) := by omega
    conv_lhs => rw [hsplit]
    exact dec_append_digit (by omega) (digit_le c 1)
  have hfield : verhCheck m (compositeBase c) = compositeCheck c ↔
      (verhDigits m (c / 100)).1.toNat = digit c 1 ∧ (verhDigits m (c / 100)).2.toNat = digit c 0 := by
    rw [verhCheck, compositeBase, compositeCheck, htens, digit_zero]
    omega
  rw [hfield, checkDigitsHold, hdec]
  refine and_congr_right fun htop => ?_
  rw [← htop]
  rfl

/-- A number is 100 or more exactly when it has 3 digits or more, so a change that keeps the count keeps that. -/
theorem hundred_le_of_dec_length_eq {c c' : Nat} (hc : 100 ≤ c) (hlen : (dec c).length = (dec c').length) :
    100 ≤ c' := by
  by_contra hlt
  have hlong : 3 ≤ (dec c).length := dec_length_mono hc
  have hshort : (dec c').length ≤ 2 := dec_length_mono (y := 99) (by omega)
  omega

theorem dec_length_div_ten {c c' : Nat} (hc : 10 ≤ c) (hc' : 10 ≤ c') (hlen : (dec c).length = (dec c').length) :
    (dec (c / 10)).length = (dec (c' / 10)).length := by
  rw [dec_length_of_le hc, dec_length_of_le hc'] at hlen
  exact Nat.succ_injective hlen

/-- Inv of the folds of digit lists is the same only where the folds are. -/
theorem invRead_vFold_default_ne {x y : Nat} (h : vFold defaultMemory (dec x) ≠ vFold defaultMemory (dec y)) :
    (invRead defaultMemory (vFold defaultMemory (dec x))).toNat ≠
      (invRead defaultMemory (vFold defaultMemory (dec y))).toNat := fun heq =>
  h (invRead_default_inj (vFold_le readsDigits_defaultMemory (isDigits_dec x))
    (vFold_le readsDigits_defaultMemory (isDigits_dec y)) (BitVec.eq_of_toNat_eq heq))

/-- One wrong digit breaks the last check digit: it is that digit, or it stands in the fold that the last digit
checks. -/
theorem not_checkDigitsHold_of_one_digit {c c' j : Nat} (hlen : (dec (c / 10)).length = (dec (c' / 10)).length)
    (hj : digit c j ≠ digit c' j) (h : ∀ i, i ≠ j → digit c i = digit c' i) (hc : checkDigitsHold defaultMemory c) :
    ¬ checkDigitsHold defaultMemory c' := by
  rintro ⟨-, hunits'⟩
  obtain ⟨-, hunits⟩ := hc
  cases j with
  | zero =>
    have hrest : c / 10 = c' / 10 := eq_of_digit_eq fun i => by rw [← digit_succ, ← digit_succ, h _ (by omega)]
    exact hj (by rw [← hunits, ← hunits', hrest])
  | succ j =>
    rw [digit_succ, digit_succ] at hj
    refine invRead_vFold_default_ne (vFold_default_ne_of_one_digit hlen hj fun i hi => ?_)
      (by rw [hunits, hunits', h 0 (by omega)])
    rw [← digit_succ, ← digit_succ, h _ (by omega)]

/-- A swap of the two check digits breaks the first of them; any other swap stands in the fold that the last digit
checks. -/
theorem not_checkDigitsHold_of_swap {c c' j : Nat} (hlen : (dec (c / 10)).length = (dec (c' / 10)).length)
    (hne : digit c j ≠ digit c (j + 1)) (hj : digit c' j = digit c (j + 1)) (hj' : digit c' (j + 1) = digit c j)
    (h : ∀ i, i ≠ j → i ≠ j + 1 → digit c i = digit c' i) (hc : checkDigitsHold defaultMemory c) :
    ¬ checkDigitsHold defaultMemory c' := by
  rintro ⟨htens', hunits'⟩
  obtain ⟨htens, hunits⟩ := hc
  cases j with
  | zero =>
    have hbase : c / 100 = c' / 100 := compositeBase_eq_of_digit_eq fun i hi => h i (by omega) (by omega)
    exact hne (by rw [← hj', ← htens', ← hbase, htens])
  | succ j =>
    rw [digit_succ c, digit_succ c] at hne
    rw [digit_succ c', digit_succ c] at hj
    rw [digit_succ c', digit_succ c] at hj'
    refine invRead_vFold_default_ne (vFold_default_ne_of_swap hlen hne hj hj' fun i hi hi' => ?_)
      (by rw [hunits, hunits', h 0 (by omega) (by omega)])
    rw [← digit_succ, ← digit_succ, h _ (by omega) (by omega)]

/-- A change that keeps the digit count and breaks the check digits is answered OK with MATCH 0. -/
theorem verhChk_default_detects {c c' : Nat} (hc : 100 ≤ c) (hlen : (dec c).length = (dec c').length)
    (hbreak : (dec (c / 10)).length = (dec (c' / 10)).length → checkDigitsHold defaultMemory c →
      ¬ checkDigitsHold defaultMemory c')
    (hmatch : verhChk defaultMemory c = { status := .ok, result := 65536 }) :
    verhChk defaultMemory c' = { status := .ok, result := 0 } := by
  have hc' := hundred_le_of_dec_length_eq hc hlen
  have hcheck : verhCheck defaultMemory (compositeBase c) = compositeCheck c := by
    by_contra hne
    rw [verhChk_of_le hc, if_neg hne] at hmatch
    cases hmatch
  rw [verhCheck_eq_compositeCheck_iff readsDigits_defaultMemory hc] at hcheck
  rw [verhChk_of_le hc', if_neg]
  rw [verhCheck_eq_compositeCheck_iff readsDigits_defaultMemory hc']
  exact hbreak (dec_length_div_ten (by omega) (by omega) hlen) hcheck

end Sys2Proof.Machine

open Sys2Proof Sys2Proof.Machine Sys2Proof.Safety

/-- Settles O16: the tables of R43 to R45 read as the closed forms. -/
theorem verhGenGivesTheTwoDigits : Obligations.VerhGenGivesTheTwoDigits := by
  intro x s hd hp hinv
  refine ⟨fun _ => cmdOfFields_eq_ofNat false true, ?_⟩
  rw [exec_eq_respond, responseOf, (romsRead_closedForms hd hp hinv).verhGen, ← verhByRule_eq_verhWith, State.respond]

/-- Settles O17: the tables of R43 to R45 read as the closed forms. -/
theorem verhChkComparesTheTwoDigits : Obligations.VerhChkComparesTheTwoDigits := by
  intro x s hd hp hinv
  refine ⟨fun _ => cmdOfFields_eq_ofNat true true, ?_⟩
  rw [exec_eq_respond, responseOf, (romsRead_closedForms hd hp hinv).verhChk, ← verhByRule_eq_verhWith, State.respond]

/-- Settles O54: legal ROMs read the entries they list. -/
theorem verhCommandsFollowAnyLegalRoms : Obligations.VerhCommandsFollowAnyLegalRoms := by
  intro x s hm
  have h := romsRead_tableEntry hm
  constructor
  · rw [exec_eq_respond, responseOf, h.verhGen, ← verhByTables_eq_verhWith, State.respond]
  · rw [exec_eq_respond, responseOf, h.verhChk, ← verhByTables_eq_verhWith, State.respond]

/-- Settles O40: no position leaves the start value, and the leading digit stands at the last one. -/
theorem foldCombinesTheLeadingDigitLast : Obligations.FoldCombinesTheLeadingDigitLast := fun m => ⟨rfl, vFold_cons m⟩

/-- Settles O41: the lanes are the folds of both passes, and the default D is a group. -/
theorem pipelineComputesVerhDigits : Obligations.PipelineComputesVerhDigits :=
  ⟨fun _ r x hm hassoc hid => verhPipeline_eq_verhDigits hm hassoc hid r x, dAssociative_default, dIdentity_default⟩

/-- Settles O42: the leading zero is combined last, and only the identity row maps it to the identity. -/
theorem leadingZeroMattersButAtIdentityRow : Obligations.LeadingZeroMattersButAtIdentityRow := by
  intro s hs
  have hrow : (s.length + 1) % 8 ≤ 7 := by omega
  rw [vFold_cons, dRead_default_eq_self_iff (vFold_le readsDigits_defaultMemory hs) (pRead_default_le hrow (by decide)),
    pRead_default_zero_iff hrow]
  omega

/-- Settles O45: the round trip of the engine with ENG 1. -/
theorem verhoeffRoundTrip : Obligations.VerhoeffRoundTrip := fun _ b hm => chk_composite_gen hm true b

/-- Settles O47: one wrong digit breaks the last check digit. -/
theorem verhoeffDetectsSingleDigitErrors : Obligations.VerhoeffDetectsSingleDigitErrors :=
  fun _ _ _ hc hlen hj h => verhChk_default_detects hc hlen fun hlen' => not_checkDigitsHold_of_one_digit hlen' hj h

/-- Settles O48: a swap of unequal digits breaks one of the check digits. -/
theorem verhoeffDetectsAdjacentSwaps : Obligations.VerhoeffDetectsAdjacentSwaps :=
  fun _ _ _ hc hlen hne hj hj' h =>
    verhChk_default_detects hc hlen fun hlen' => not_checkDigitsHold_of_swap hlen' hne hj hj' h
end

section
/-! The errors of spec/60_exceptions.md (R130 to R136, R138). The order of the checks gives one STATUS for every request
(`execRequest_status`); when an error is reported is read off it, branch by branch, and an error is a response like any
other, so the machine goes on. -/

namespace Sys2Proof
open Sys2Proof.Machine

/-- The CMD bytes of R64 are those with RSVD not 0. -/
theorem cmdRsvd_ne_zero_iff (cmd : BitVec 8) : cmdRsvd cmd ≠ 0 ↔ 4 ≤ cmd.toNat := by
  rw [ne_eq, cmdRsvd_eq_zero_iff, not_lt]

/-- The two CHK bytes as numbers (spec/30_encoding.md R63). -/
theorem cmd_eq_chk_iff (cmd : BitVec 8) : cmd = 0x02 ∨ cmd = 0x03 ↔ 2 ≤ cmd.toNat ∧ cmd.toNat < 4 := by
  simp only [← BitVec.toNat_inj, BitVec.ofNat_eq_ofNat, BitVec.toNat_ofNat]
  omega

/-- The sign of an operand is the top bit of the OPERAND field (spec/30_encoding.md R62). -/
theorem operandValue_neg_iff {w : Nat} (hw : 1 ≤ w) (req : Request) :
    operandValue w req < 0 ↔ req.operand.testBit (w - 1) = true := by
  have hbit : (req.operandBits w).msb = req.operand.testBit (w - 1) := by
    have hlast : w - 1 < w := by omega
    rw [BitVec.msb_eq_getLsbD_last, Request.operandBits, BitVec.getLsbD_ofNat, decide_eq_true hlast, Bool.true_and]
  rw [operandValue, sint_eq_toInt, ← hbit, BitVec.msb_eq_toInt, decide_eq_true_eq]

end Sys2Proof

/-! ### When each error is reported -/

namespace Sys2Proof.Machine
open Sys2Proof

section
variable (m : Memory) (w : Nat) (req : Request)

theorem execRequest_status_eq_illegalCommand_iff :
    (execRequest m w req).status = .illegalCommand ↔ 4 ≤ req.cmd.toNat := by
  rw [execRequest_status]
  split_ifs with hillegal
  · exact iff_of_true rfl hillegal
  all_goals exact iff_of_false (by decide) hillegal

theorem execRequest_status_eq_invalidInput_iff :
    (execRequest m w req).status = .invalidInput ↔ req.cmd.toNat < 4 ∧ operandValue w req < 0 := by
  rw [execRequest_status]
  split_ifs with hillegal hneg hshort
  · exact iff_of_false (by decide) (by omega)
  · exact iff_of_true rfl (by omega)
  all_goals exact iff_of_false (by decide) (by omega)

theorem execRequest_status_eq_tooShort_iff :
    (execRequest m w req).status = .tooShort ↔
      (2 ≤ req.cmd.toNat ∧ req.cmd.toNat < 4) ∧ 0 ≤ operandValue w req ∧ operandValue w req ≤ 99 := by
  rw [execRequest_status]
  split_ifs with hillegal hneg hshort
  · exact iff_of_false (by decide) (by omega)
  · exact iff_of_false (by decide) (by omega)
  · exact iff_of_true rfl (by omega)
  · exact iff_of_false (by decide) (by omega)

theorem execRequest_status_ne_overflow : (execRequest m w req).status ≠ .overflow := by
  rw [execRequest_status]
  split_ifs <;> decide

end

/-- A response that reports an error is `raise` of its STATUS (spec/60_exceptions.md R130). -/
theorem execRequest_eq_raise {m : Memory} {w : Nat} {req : Request} (h : (execRequest m w req).status ≠ .ok) :
    execRequest m w req = raise (execRequest m w req).status := by
  rw [raise, ← execRequest_result_eq_zero h]

/-- A CHK whose engine computes another check value than the composite's is answered OK with RESULT 0, which has MATCH 0
(spec/60_exceptions.md R136). -/
theorem execRequest_of_mismatch {m : Memory} {w : Nat} {req : Request} {eng : Bool}
    (hcmd : req.cmd = cmdOfFields 0 true eng) (hlong : 100 ≤ operandValue w req)
    (hne : engineCheck m eng ((operandValue w req).toNat / 100) ≠ (operandValue w req).toNat % 100) :
    execRequest m w req = respondOk 0 := by
  obtain ⟨hrsvd, hfn, heng⟩ := cmd_eq_cmdOfFields_iff.mp hcmd
  rw [execRequest_of_legal m w hrsvd, hfn, heng, responseOf_chk, if_neg (by omega), if_neg (by omega),
    decide_eq_false hne, chkResult_eq]
  rfl

/-! ### The machine goes on -/

theorem exists_deliver_eq_next (s : State) : ∃ t, deliver s = .next t := by
  rcases deliver_cases s with ⟨-, h⟩ | ⟨_, _, _, -, -, h⟩ | ⟨_, _, -, -, h⟩ <;> exact ⟨_, h⟩

theorem exists_step_eq_next (s : State) : ∃ t, step s = .next t := by
  rcases step_cases s with ⟨-, h⟩ | ⟨_, -, h⟩ | ⟨rest, -, h⟩ | ⟨_, -, h⟩
  · exact ⟨_, h⟩
  · exact ⟨_, h⟩
  · rw [h]
    exact exists_deliver_eq_next _
  · exact ⟨_, h⟩

end Sys2Proof.Machine

open Sys2Proof Sys2Proof.Machine Sys2Proof.Safety

/-- Settles O13: a deliver answers a state in each of its cases, and every other move is an update of the state. -/
theorem everyStepAnswersANextState : Obligations.EveryStepAnswersANextState := exists_step_eq_next

/-- Settles O21: the second check of Exec, whose sign is the top bit of the field. -/
theorem negativeOperandIsInvalidInput : Obligations.NegativeOperandIsInvalidInput := fun m w req hw =>
  ⟨execRequest_status_eq_invalidInput_iff m w req, operandValue_neg_iff hw req,
    fun h => execRequest_result_eq_zero (by simp [h])⟩

/-- Settles O22: the third check of Exec, which only the two CHK bytes reach. -/
theorem shortCompositeIsTooShort : Obligations.ShortCompositeIsTooShort := fun m w req =>
  ⟨by rw [execRequest_status_eq_tooShort_iff, cmd_eq_chk_iff], fun h => execRequest_result_eq_zero (by simp [h])⟩

/-- Settles O23: the deliver answers Exec of the head, and the first check of Exec is the test of RSVD. -/
theorem illegalCommandIsAnswered : Obligations.IllegalCommandIsAnswered := by
  intro s req rest ms hs hq
  refine ⟨cmdRsvd_ne_zero_iff req.cmd, fun hillegal => ?_, fun hlegal => ?_⟩
  · rw [deliverAnswersExecOfTheHead s req rest ms hs hq,
      execRequest_of_illegal _ _ ((cmdRsvd_ne_zero_iff _).mpr hillegal), raise]
  · rw [ne_eq, execRequest_status_eq_illegalCommand_iff]
    exact not_le.mpr hlegal

/-- Settles O24: the order of Exec's checks, none of which reports OVERFLOW. -/
theorem errorsAreReportedInPriorityOrder : Obligations.ErrorsAreReportedInPriorityOrder := fun m w req =>
  ⟨execRequest_status m w req, execRequest_status_ne_overflow m w req⟩

/-- Settles O25: the comparison of either engine fails, and RESULT is MATCH alone. -/
theorem mismatchIsNoError : Obligations.MismatchIsNoError := fun _ _ _ hlong =>
  ⟨fun hcmd hne => execRequest_of_mismatch (eng := false) hcmd hlong hne,
    fun hcmd hne => execRequest_of_mismatch (eng := true) hcmd hlong hne⟩

/-- Settles O26: the first step answers the erroneous head, and leaves the state in which the successor is the head. -/
theorem errorLeavesTheNextRequestAlone : Obligations.ErrorLeavesTheNextRequestAlone := by
  intro s bad good rest ms hs hq herr
  have hstep := deliverAnswersExecOfTheHead s bad (good :: rest) (.deliver :: ms) hs hq
  rw [execRequest_eq_raise herr] at hstep
  exact run_succ_of_step hstep 1
end

section
/-! Reset, the port and progress of spec/70_reset_and_hazards.md (R150, R151, R153, R155, R157). One step is said for
each move that takes effect, and runs are put together from runs; at signal level, a port whose response is not taken
keeps its head and waits one edge longer, which gives both the held offer and the offer in finite time. -/

/-! ### One step of each move -/

namespace Sys2Proof.Machine
open Sys2Proof Sys2Proof.Safety

theorem step_of_schedule_cons {s : State} {mv : Move} {ms : List Move} (h : s.schedule = mv :: ms) :
    step s = perform mv (s.afterMove ms) := by rw [step, h]

theorem deliver_of_ifq_nil {s : State} (h : s.ifq = []) : deliver s = .next s := by rw [deliver, h]

section
variable {s : State} {ms : List Move}

theorem State.accept_of_pending_nil (hp : s.pending = []) : s.accept = s := by rw [State.accept, hp]

theorem State.accept_of_pending_cons {req : Request} {ps : List Request} (hp : s.pending = req :: ps) :
    s.accept = if s.ifq.length < s.build.qdepth then { s with ifq := s.ifq ++ [req], pending := ps } else s := by
  simp only [State.accept, hp, State.ready, decide_eq_true_eq, State.append]

theorem step_of_accept {req : Request} {ps : List Request} (hs : s.schedule = .accept :: ms)
    (hp : s.pending = req :: ps) (hroom : s.ifq.length < s.build.qdepth) :
    step s = .next { s with schedule := ms, ifq := s.ifq ++ [req], pending := ps } := by
  rw [step_of_schedule_cons hs, perform, State.accept_of_pending_cons (s := s.afterMove ms) hp]
  exact congrArg _ (if_pos hroom)

theorem step_of_reset (hs : s.schedule = .reset :: ms) : step s = .next { s with schedule := ms, ifq := [] } :=
  step_of_schedule_cons hs

end

end Sys2Proof.Machine

/-! ### Runs of one kind of move -/

namespace Sys2Proof.Safety
open Sys2Proof Sys2Proof.Machine

theorem run_add {j : Nat} {s u : State} (h : run j s = .next u) (k : Nat) : run (j + k) s = run k u := by
  induction j generalizing s with
  | zero =>
    cases h
    rw [Nat.zero_add]
  | succ j ih =>
    obtain ⟨v, hstep, hrun⟩ := exists_step_of_run_succ h
    rw [Nat.succ_add, run_succ_of_step hstep, ih hrun]

/-- As many accepts as IFQ has room for take that many pending requests, in order. -/
theorem run_replicate_accept {s : State} {reqs later : List Request} {ms : List Move}
    (hs : s.schedule = List.replicate reqs.length .accept ++ ms) (hp : s.pending = reqs ++ later)
    (hroom : s.ifq.length + reqs.length ≤ s.build.qdepth) :
    run reqs.length s = .next { s with schedule := ms, ifq := s.ifq ++ reqs, pending := later } := by
  induction reqs generalizing s with
  | nil =>
    obtain rfl : s.schedule = ms := hs
    obtain rfl : s.pending = later := hp
    simp
  | cons req reqs ih =>
    rw [List.length_cons] at hroom
    have hstep := step_of_accept hs hp (by omega)
    rw [List.length_cons, run_succ_of_step hstep, ih rfl rfl (by simp; omega)]
    simp

/-- As many delivers as requests are in flight take Exec of each, in order. -/
theorem run_replicate_deliver {s : State} {reqs : List Request} {ms : List Move} (hq : s.ifq = reqs)
    (hs : s.schedule = List.replicate reqs.length .deliver ++ ms) :
    run reqs.length s = .next { s with
      schedule := ms, ifq := [], taken := s.taken ++ reqs.map (execRequest s.mem s.build.w) } := by
  induction reqs generalizing s with
  | nil =>
    obtain rfl : s.schedule = ms := hs
    rw [List.length_nil, run_zero, List.map_nil, List.append_nil, ← hq]
  | cons req reqs ih =>
    have hstep := step_of_deliver hs hq
    rw [List.length_cons, run_succ_of_step hstep, ih (by simp [hq]) rfl]
    simp [State.respond, State.afterMove]

end Sys2Proof.Safety

/-! ### One edge as port moves -/

namespace Sys2Proof.Machine
open Sys2Proof Sys2Proof.Safety

/-- The move of an edge's response transfer, if it has one. -/
def Port.responseMoves (p : Port) (pins : Pins) : List Move := if p.responseTransfers pins then [.deliver] else []

/-- The move of an edge's request transfer, if it has one. -/
def Port.requestMoves (p : Port) (pins : Pins) : List Move := if p.requestTransfers pins then [.accept] else []

section
variable {p : Port} {pins : Pins}

theorem Port.edgeMoves_of_not_rst (h : pins.rst = false) :
    p.edgeMoves pins = p.responseMoves pins ++ p.requestMoves pins := by
  simp [Port.edgeMoves, h, responseMoves, requestMoves]

theorem Port.edge_core_of_rst (h : pins.rst = true) : (p.edge pins).core = p.core.resetBlock := by simp [Port.edge, h]

theorem Port.edge_core_of_not_rst (h : pins.rst = false) : (p.edge pins).core = p.afterTransfers pins := by
  rw [Port.edge, if_neg (by simp [h])]
  split <;> rfl

theorem Port.requestTransfers_of_rst (h : pins.rst = true) : p.requestTransfers pins = false := by
  simp [Port.requestTransfers, Port.reqReady, h]

theorem Port.length_ifq_lt_of_requestTransfers (h : p.requestTransfers pins = true) :
    p.core.ifq.length < p.core.build.qdepth := by
  simp only [Port.requestTransfers, Port.reqReady, State.ready, Bool.and_eq_true, decide_eq_true_eq] at h
  exact h.2.2

/-- A response that transfers is Exec of the head. -/
theorem Port.afterResponse_of_responseTransfers (h : p.responseTransfers pins = true) :
    ∃ req rest, p.core.ifq = req :: rest ∧
      p.afterResponse pins = p.core.respond (execRequest p.core.mem p.core.build.w req) := by
  rw [Port.responseTransfers, Bool.and_eq_true, Option.isSome_iff_exists] at h
  obtain ⟨⟨rsp, hoffer⟩, hready⟩ := h
  obtain ⟨req, rest, hq, -, -, rfl⟩ := Port.rspOffer_eq_some.mp hoffer
  exact ⟨req, rest, hq, by simp only [Port.afterResponse, hoffer, hready, if_true]⟩

/-- The response transfer of an edge frees a place and takes none, so a request that transfers has room after it. -/
theorem Port.length_ifq_afterResponse_le (p : Port) (pins : Pins) :
    (p.afterResponse pins).ifq.length ≤ p.core.ifq.length := by
  cases h : p.responseTransfers pins with
  | false => rw [Port.afterResponse_of_not h]
  | true =>
    obtain ⟨req, rest, hq, hafter⟩ := Port.afterResponse_of_responseTransfers h
    simp [hafter]

theorem Port.run_responseMoves {ms : List Move} (hs : p.core.schedule = p.responseMoves pins ++ ms) :
    run (p.responseMoves pins).length p.core = .next ((p.afterResponse pins).afterMove ms) := by
  cases h : p.responseTransfers pins with
  | false =>
    simp only [Port.responseMoves, h, Bool.false_eq_true, if_false, List.nil_append] at hs ⊢
    rw [Port.afterResponse_of_not h, ← hs]
    rfl
  | true =>
    obtain ⟨req, rest, hq, hafter⟩ := Port.afterResponse_of_responseTransfers h
    simp only [Port.responseMoves, h, if_true] at hs ⊢
    rw [hafter]
    exact run_succ_of_step (step_of_deliver hs hq) 0

theorem Port.run_requestMoves {ps : List Request} {ms : List Move}
    (hp : p.requestTransfers pins = true → p.core.pending = pins.request :: ps) :
    run (p.requestMoves pins).length ((p.afterResponse pins).afterMove (p.requestMoves pins ++ ms)) =
      .next { p.afterTransfers pins with
        schedule := ms, pending := if p.requestTransfers pins then ps else p.core.pending } := by
  cases h : p.requestTransfers pins with
  | false =>
    simp only [Port.requestMoves, Port.afterTransfers, h, Bool.false_eq_true, if_false]
    rw [← Port.afterResponse_pending p pins]
    rfl
  | true =>
    have hroom := lt_of_le_of_lt (Port.length_ifq_afterResponse_le p pins) (Port.length_ifq_lt_of_requestTransfers h)
    simp only [Port.requestMoves, Port.afterTransfers, h, if_true]
    exact run_succ_of_step (step_of_accept rfl (by simpa using hp h) (by simpa using hroom)) 0

end

/-! ### A response that is not taken -/

/-- `q` is `p` after `k` edges at which the response to its head was not taken: the head waits on, and requests may have
joined the queue behind it. -/
structure Port.Holds (p q : Port) (k : Nat) : Prop where
  ifq : p.core.ifq <+: q.core.ifq
  mem : q.core.mem = p.core.mem
  build : q.core.build = p.core.build
  waited : q.waited = p.waited + k
  turn : q.turn = p.turn

theorem Port.Holds.refl (p : Port) : p.Holds p 0 := ⟨List.prefix_rfl, rfl, rfl, rfl, rfl⟩

theorem Port.Holds.trans {p q r : Port} {j k : Nat} (h : p.Holds q j) (h' : q.Holds r k) : p.Holds r (j + k) :=
  ⟨h.ifq.trans h'.ifq, h'.mem.trans h.mem, h'.build.trans h.build, by rw [h'.waited, h.waited, add_assoc],
    h'.turn.trans h.turn⟩

/-- Once the head has waited LATENCY out, Exec of it is on the wires (spec/70_reset_and_hazards.md R157). -/
theorem Port.Holds.rspOffer {p q : Port} {k : Nat} (h : p.Holds q k) {req : Request} {rest : List Request}
    (hq : p.core.ifq = req :: rest) (hlatency : Config.latency p.turn ≤ p.waited + k) {pins : Pins}
    (hrst : pins.rst = false) : q.rspOffer pins = some (execRequest p.core.mem p.core.build.w req) := by
  obtain ⟨hprefix, hmem, hbuild, hwaited, hturn⟩ := h
  obtain ⟨more, hmore⟩ := hprefix
  rw [hq, List.cons_append] at hmore
  exact Port.rspOffer_eq_some.mpr ⟨req, rest ++ more, hmore.symm, hrst, by rwa [hturn, hwaited], by rw [hmem, hbuild]⟩

section
variable {p : Port} {pins : Pins}

theorem Port.responseTransfers_of_not_rspReady (h : pins.rspReady = false) : p.responseTransfers pins = false := by
  simp [Port.responseTransfers, h]

/-- While rst = 1, and before LATENCY has passed, no response is on the wires. -/
theorem Port.rspOffer_eq_none (h : pins.rst = false → p.waited < Config.latency p.turn) : p.rspOffer pins = none := by
  rw [Option.eq_none_iff_forall_ne_some]
  intro rsp hoffer
  obtain ⟨_, _, -, hrst, hlatency, -⟩ := Port.rspOffer_eq_some.mp hoffer
  exact absurd hlatency (not_le.mpr (h hrst))

theorem Port.responseTransfers_of_waited_lt (h : p.waited < Config.latency p.turn) :
    p.responseTransfers pins = false := by
  simp [Port.responseTransfers, Port.rspOffer_eq_none fun _ => h]

theorem Port.holds_edge (hq : p.core.ifq ≠ []) (hrst : pins.rst = false) (h : p.responseTransfers pins = false) :
    p.Holds (p.edge pins) 1 := by
  refine ⟨?_, Port.edge_mem p pins, Port.edge_build p pins, ?_, ?_⟩
  · rw [Port.edge_core_of_not_rst hrst, Port.afterTransfers, Port.afterResponse_of_not h]
    split
    · exact List.prefix_append _ _
    · exact List.prefix_rfl
  · simp [Port.edge, hrst, h, hq]
  · simp [Port.edge, hrst, h]

end

/-- Edges at which no response can be taken, because LATENCY has not passed at any of them or the host takes none. -/
theorem Port.holds_edges {p : Port} {sent : List Pins} (hq : p.core.ifq ≠ []) (hrst : ∀ e ∈ sent, e.rst = false)
    (h : p.waited + sent.length ≤ Config.latency p.turn ∨ ∀ e ∈ sent, e.rspReady = false) :
    p.Holds (Port.edges sent p) sent.length := by
  induction sent generalizing p with
  | nil => exact Port.Holds.refl p
  | cons pins sent ih =>
    rw [List.forall_mem_cons] at hrst h
    rw [List.length_cons] at h
    have hnot : p.responseTransfers pins = false := by
      rcases h with hwait | ⟨hready, -⟩
      · exact Port.responseTransfers_of_waited_lt (by omega)
      · exact Port.responseTransfers_of_not_rspReady hready
    have hedge := Port.holds_edge hq hrst.1 hnot
    have hrest : (p.edge pins).waited + sent.length ≤ Config.latency (p.edge pins).turn ∨
        ∀ e ∈ sent, e.rspReady = false := by
      rw [hedge.waited, hedge.turn]
      exact h.imp (by omega) And.right
    rw [Port.edges_cons, List.length_cons, add_comm]
    exact hedge.trans (ih (hedge.ifq.ne_nil hq) hrst.2 hrest)

end Sys2Proof.Machine

open Sys2Proof Sys2Proof.Machine Sys2Proof.Safety

/-- Settles O7: the deliver move performs the head, and a head that decodes is performed by exec. -/
theorem stepRunsTheDecodedCommand : Obligations.StepRunsTheDecodedCommand := by
  intro s req rest ms i hs hq hd
  simp only [step_of_schedule_cons hs, perform, deliver, State.afterMove, hq, hd]

/-- Settles O9: the cases of accept and of deliver, and the idle step. -/
theorem acceptAppendsOnlyWhenThereIsRoom : Obligations.AcceptAppendsOnlyWhenThereIsRoom := by
  intro s ms
  refine ⟨fun req ps hs hp => ?_, fun hs hp => ?_, fun hs hq => ?_, fun hs => ?_⟩
  · rw [step_of_schedule_cons hs, perform, State.accept_of_pending_cons (s := s.afterMove ms) hp]
    rfl
  · rw [step_of_schedule_cons hs, perform, State.accept_of_pending_nil (s := s.afterMove ms) hp]
    rfl
  · rw [step_of_schedule_cons hs]
    exact deliver_of_ifq_nil hq
  · rw [step, hs]

/-- Settles O10: the reset move, and the reset state as it is defined. -/
theorem resetEmptiesTheQueueOnly : Obligations.ResetEmptiesTheQueueOnly :=
  ⟨fun _ _ hs => step_of_reset hs, rfl, rfl, rfl⟩

/-- Settles O32: one deliver for each request in flight. -/
theorem takingResponsesDrainsTheQueue : Obligations.TakingResponsesDrainsTheQueue := fun _ _ hs =>
  run_replicate_deliver rfl hs

/-- Settles O12: IFQ, empty and of depth 1, has room for the one request, which is then the head. -/
theorem acceptThenDeliverIsOneTransaction : Obligations.AcceptThenDeliverIsOneTransaction := by
  intro s req ps ms hdepth hq hs hp
  have haccept := step_of_accept hs hp (by simp [hdepth, hq])
  rw [hq, List.nil_append] at haccept
  rw [run_succ_of_step haccept, run_succ_of_step (step_of_deliver rfl rfl)]
  simp [State.respond, State.afterMove, hq]

/-- Settles O11: reset leaves IFQ empty, so the accepts fill it with the pending requests alone. -/
theorem firstResponseAfterResetAnswersFirstRequest : Obligations.FirstResponseAfterResetAnswersFirstRequest := by
  intro s req more later ms hdepth hs hp
  have haccepts : run (more.length + 1) { s with
        schedule := List.replicate (more.length + 1) .accept ++ .deliver :: ms, ifq := [] } =
      .next { s with schedule := .deliver :: ms, ifq := req :: more, pending := later } :=
    run_replicate_accept (reqs := req :: more) rfl hp (by simpa using hdepth)
  exact (run_succ_of_step (step_of_reset hs) _).trans
    ((run_add haccepts 1).trans (run_succ_of_step (step_of_deliver rfl rfl) 0))

/-- Settles O50: with rst = 1 the edge is the reset move, and otherwise its transfers are a deliver and an accept. -/
theorem clockEdgeIsItsPortMoves : Obligations.ClockEdgeIsItsPortMoves := by
  intro p pins ps ms hp hs
  cases hrst : pins.rst with
  | true =>
    have hmoves : p.edgeMoves pins = [.reset] := by simp [Port.edgeMoves, hrst]
    rw [hmoves] at hs ⊢
    rw [Port.edge_core_of_rst hrst, Port.requestTransfers_of_rst hrst]
    exact run_succ_of_step (step_of_reset hs) 0
  | false =>
    rw [Port.edgeMoves_of_not_rst hrst] at hs ⊢
    rw [List.append_assoc] at hs
    rw [List.length_append, run_add (Port.run_responseMoves hs), Port.edge_core_of_not_rst hrst]
    exact Port.run_requestMoves hp

/-- Settles O51: an offer not taken is held over the edge, and LATENCY has passed already. -/
theorem portKeepsItsSignalDuties : Obligations.PortKeepsItsSignalDuties := by
  intro p pins next rsp
  refine ⟨fun hfull => ?_, fun hrst => ⟨?_, Port.rspOffer_eq_none (by simp [hrst])⟩, fun hoffer hready hnext => ?_⟩
  · simp [Port.reqReady, State.ready, hfull]
  · simp [Port.reqReady, hrst]
  · obtain ⟨req, rest, hq, hrst, hlatency, rfl⟩ := Port.rspOffer_eq_some.mp hoffer
    have hholds := Port.holds_edge (hq ▸ List.cons_ne_nil req rest) hrst (Port.responseTransfers_of_not_rspReady hready)
    exact hholds.rspOffer hq (by omega) hnext

/-- Settles O52: within the edges that LATENCY still lacks no response can be taken, and after them it is offered. -/
theorem responseIsOfferedInFiniteTime : Obligations.ResponseIsOfferedInFiniteTime := by
  intro p req rest hq
  refine ⟨Config.latency p.turn - p.waited, fun sent pins hrst hsent hlength => ?_⟩
  have huntaken : p.waited + sent.length ≤ Config.latency p.turn ∨ ∀ e ∈ sent, e.rspReady = false := by
    rcases hlength with hlen | ⟨-, hready⟩
    · rcases le_total p.waited (Config.latency p.turn) with hle | hle
      · exact .inl (by omega)
      · have hnil : sent = [] := List.eq_nil_of_length_eq_zero (by omega)
        exact .inr (by simp [hnil])
    · exact .inr hready
  exact (Port.holds_edges (by simp [hq]) hsent huntaken).rspOffer hq (by omega) hrst
end

section
/-! Raw requests (spec/95_test_vectors.md L2.5, P1, P2): the packed 72-bit string of a well-formed command decodes to that
command on the default build, and a string decodes to nothing exactly when its RSVD bits are not 0. -/

namespace Sys2Proof.Machine
open Sys2Proof Sys2Proof.Safety

theorem fits_encode (w : Nat) (i : Instr) : fits w (encode w i) := BitVec.isLt _

theorem requestOfBits_packRequest {w : Nat} {req : Request} (h : fits w req) :
    requestOfBits w (w + 8) (packRequest w req).toNat = req := by
  rw [requestOfBits, Nat.mod_eq_of_lt (BitVec.isLt _), BitVec.ofNat_toNat, BitVec.setWidth_eq,
    unpackRequest_packRequest h]

/-- The round trip of decode and encode, on the packed strings of the default build. -/
theorem decodeTableWord_packRequest_encode {i : Instr} {v : Nat} (hwf : i.wellFormed Config.defaultBuild.w = true)
    (hv : (packRequest Config.defaultBuild.w (encode Config.defaultBuild.w i)).toNat = v) :
    decodeTableWord (Config.defaultBuild.w + 8) v = some i := by
  rw [← hv, decodeTableWord, requestOfBits_packRequest (fits_encode _ i), decodeOfEncodeIsTheCommand _ i hwf]

theorem decodeTableWord_eq_none_iff (nbits v : Nat) :
    decodeTableWord nbits v = none ↔ cmdRsvd (requestOfBits Config.defaultBuild.w nbits v).cmd ≠ 0 := by
  rw [decodeTableWord]
  rcases decode_cases Config.defaultBuild.w (requestOfBits Config.defaultBuild.w nbits v) with
    ⟨hillegal, h⟩ | ⟨hrsvd, h⟩ <;> rw [h]
  · exact iff_of_true rfl hillegal
  · exact iff_of_false (Option.some_ne_none _) (not_not_intro hrsvd)

end Sys2Proof.Machine

open Sys2Proof Sys2Proof.Machine Sys2Proof.Safety

/-- Settles O4: the first four strings are the packed encodings of their commands, and CMD 0x04 has RSVD 1. -/
theorem rawRequestsOfTheSpecDecode : Obligations.RawRequestsOfTheSpecDecode :=
  ⟨decodeTableWord_packRequest_encode (i := .luhnGen 17893729) (by decide) (by decide),
    decodeTableWord_packRequest_encode (i := .verhGen 1234567) (by decide) (by decide),
    decodeTableWord_packRequest_encode (i := .luhnChk (-5)) (by decide) (by decide),
    decodeTableWord_packRequest_encode (i := .verhChk 23643) (by decide) (by decide),
    (decodeTableWord_eq_none_iff _ _).mpr (by decide)⟩
end
